-- ==== Sys2Proof/Word.lean ====
section
/-! DEFINITION. The bit-vector types of spec/00_scope.md R7, R8: the byte of the wire and the widths of the
registers and latches. -/

namespace Sys2Proof

/-- A wire or content byte (R7 `BYTE`). -/
abbrev Byte := BitVec 8

/-- A 16-bit value: a checksum or the checksum accumulator (R105). -/
abbrev Half := BitVec 16

/-- A 24-bit quantity code (10_state.md R42). -/
abbrev Code := BitVec 24

/-- A host register's value (R7 `REG_WIDTH`). -/
abbrev Word := BitVec 32

/-- The 64-bit mantissa of the scalar decoder (10_state.md R42). -/
abbrev Dword := BitVec 64

end Sys2Proof
end

