-- ==== Sys2Proof/Config.lean ====
section
/-! DEFINITION. The build-time parameters of 00_scope.md R7, which are configuration and not state (10_state.md
R44). All are OPEN: the one constant `Config.params` has no body, so a proof about the machine holds for every
value of them (notes/assumptions/1.md). The operations of Machine/ take the parameters as an argument, as R44
says a model does, so that a test can give them the values its vector assumes. -/

namespace Sys2Proof.Config

/-- The parameters of R7. The bounds R7 puts on a value are built into its field (notes/assumptions/18.md). -/
structure Params where
  /-- `FCS_INIT`, the initial checksum accumulator -/
  fcsInit : Half
  /-- `FCS_UPD`, the accumulator update -/
  fcsUpd : Half → Byte → Half
  /-- `FCS_FIN`, the finalisation -/
  fcsFin : Half → Half
  /-- how far `TXQ_DEPTH` exceeds its least value 16 -/
  txqSpare : Fin 65520
  /-- how far `RX_MAX_BODY` exceeds its least value 2 -/
  rxSpare : Fin 65534
  /-- any four distinct bytes are the images of 0, 1, 2, 3 under some rearrangement of the bytes -/
  shapes : Equiv.Perm Byte
  /-- `CODE_PROD_TODAY` -/
  codeProdToday : Code
  /-- `CODE_PROD_LIFETIME` -/
  codeProdLifetime : Code
  /-- `CODE_SPOT_AC_POWER` -/
  codeSpotAcPower : Code
  /-- `CODE_SPOT_AC_FREQUENCY` -/
  codeSpotAcFrequency : Code
  /-- `CODE_OPERATION_TIME` -/
  codeOperationTime : Code
  /-- `CODE_OPERATION_FEEDIN_TIME` -/
  codeOperationFeedinTime : Code
  /-- `RAW_SIGNED` -/
  rawSigned : Bool
  deriving Inhabited

/-- `TXQ_DEPTH`, an integer from 16 to 65535 (R7, D9). -/
def Params.txqDepth (P : Params) : Nat := P.txqSpare.val + 16

/-- `RX_MAX_BODY`, an integer from 2 to 65535 (R7, D15). -/
def Params.rxMaxBody (P : Params) : Nat := P.rxSpare.val + 2

/-- `SHAPE_LONG` (R7, D20). -/
def Params.shapeLong (P : Params) : Byte := P.shapes 0

/-- `SHAPE_STATUS` (R7, D20). -/
def Params.shapeStatus (P : Params) : Byte := P.shapes 1

/-- `SHAPE_TEXT` (R7, D20). -/
def Params.shapeText (P : Params) : Byte := P.shapes 2

/-- `SHAPE_INT` (R7, D20). -/
def Params.shapeInt (P : Params) : Byte := P.shapes 3

/-- The parameters of the block the machine models: left open. -/
opaque params : Params

/-- What a host packs for the payload byte at an index the payload does not have: a free value, since
43_scalar_decoder.md R160 says nothing of a payload that ends inside a record (DESIGN CHOICE,
notes/assumptions/21.md). -/
opaque missingPayloadByte : Nat → Byte

end Sys2Proof.Config
end

