-- ==== Sys2Proof/Syntax.lean ====
section
/-! DEFINITION. The instructions: one constructor per row of spec/opcode_table.json. The nine `C` rows are the
commands of 30_encoding.md R83; the `A` rows are the legal register accesses other than the CMD write
(20_memory.md R60, 44_control.md R182, R183). Every operand has exactly the width of its field, so every term
of this type is well formed. -/

namespace Sys2Proof

inductive Instr where
  /-- `NOP` (44_control.md R180). -/
  | nop
  /-- `TX_START` (41_tx_framer.md R121). -/
  | txStart
  /-- `TX_BYTE b` (R122): ARG is one content byte. -/
  | txByte (b : Byte)
  /-- `TX_RANGE` (R123). -/
  | txRange
  /-- `TX_END` (R124). -/
  | txEnd
  /-- `RX_BYTE w` (42_rx_deframer.md R142): ARG is one wire byte. -/
  | rxByte (w : Byte)
  /-- `RX_ACK` (R147). -/
  | rxAck
  /-- `SD_DECODE` (43_scalar_decoder.md R163). -/
  | sdDecode
  /-- `SRESET` (44_control.md R181). -/
  | sreset
  /-- `RD STATUS` (R183, 10_state.md R25). -/
  | rdStatus
  /-- `RD TX_DATA` (41_tx_framer.md R125): a read that pops. -/
  | rdTxData
  /-- `RD TX_LEVEL` (10_state.md R27). -/
  | rdTxLevel
  /-- `RD TX_FCS` (10_state.md R28). -/
  | rdTxFcs
  /-- `RD RX_DATA` (42_rx_deframer.md R148): a read that advances the read pointer. -/
  | rdRxData
  /-- `RD RX_STATUS` (10_state.md R30). -/
  | rdRxStatus
  /-- `RD RX_FCS` (10_state.md R31). -/
  | rdRxFcs
  /-- `RD SD_TAG` (10_state.md R32). -/
  | rdSdTag
  /-- `RD SD_TS` (10_state.md R33). -/
  | rdSdTs
  /-- `RD SD_VAL_LO` (10_state.md R34). -/
  | rdSdValLo
  /-- `RD SD_VAL_HI` (10_state.md R34). -/
  | rdSdValHi
  /-- `RD SD_RESULT` (10_state.md R35). -/
  | rdSdResult
  /-- `RD SD_CODE` (10_state.md R36). -/
  | rdSdCode
  /-- `RD SD_MANT_LO` (10_state.md R37). -/
  | rdSdMantLo
  /-- `RD SD_MANT_HI` (10_state.md R37). -/
  | rdSdMantHi
  /-- `RD SD_TSTAMP` (10_state.md R38). -/
  | rdSdTstamp
  /-- `RD RANGE_START` (10_state.md R39). -/
  | rdRangeStart
  /-- `RD RANGE_END` (10_state.md R39). -/
  | rdRangeEnd
  /-- `WR SD_TAG, v` (44_control.md R182). -/
  | wrSdTag (v : Word)
  /-- `WR SD_TS, v` (R182). -/
  | wrSdTs (v : Word)
  /-- `WR SD_VAL_LO, v` (R182). -/
  | wrSdValLo (v : Word)
  /-- `WR SD_VAL_HI, v` (R182). -/
  | wrSdValHi (v : Word)
  /-- `WR RANGE_START, v` (R182). -/
  | wrRangeStart (v : Word)
  /-- `WR RANGE_END, v` (R182). -/
  | wrRangeEnd (v : Word)
  deriving DecidableEq, Repr

end Sys2Proof
end

