-- ==== Sys2Proof/WellFormed.lean ====
section
/-! DEFINITION. The raw form an instruction has on the host bus, and when it is well formed. An `Instr` cannot be
ill formed (its operands have the exact widths of their fields); what can be is the access that carries it
(20_memory.md R60, R61) and the word written to CMD (30_encoding.md R84). The tests of
Sys2Proof/Tests/Slice0.lean hold one refused access per check. -/

namespace Sys2Proof

/-- A host access (20_memory.md R60): `MemRead(off, n)` or `MemWrite(off, n, v)`. The offset and the size are
plain numbers, since any of them can be tried (R61 rejects the illegal ones). -/
inductive Access where
  | read (off size : Nat)
  | write (off size : Nat) (v : Word)
  deriving DecidableEq, Repr

/-- The five checks of 20_memory.md R61, in its order. -/
inductive BusCheck where
  /-- (1) the size is not 4 -/
  | size
  /-- (2) the offset is not a multiple of 4 -/
  | misaligned
  /-- (3) the offset is not mapped -/
  | unmapped
  /-- (4) a read of the write-only register CMD -/
  | readOfWriteOnly
  /-- (5) a write of a read-only register -/
  | writeOfReadOnly
  deriving DecidableEq, Repr

/-- The three checks of a CMD word (30_encoding.md R80), in the order of 60_exceptions.md R209. -/
inductive CmdCheck where
  /-- RSV, bits [31:16], is not 0 -/
  | rsv
  /-- OPC, bits [7:0], is unassigned -/
  | opc
  /-- ARG, bits [15:8], is not 0 and the opcode takes none -/
  | arg
  deriving DecidableEq, Repr

/-- The assigned opcodes (30_encoding.md R83). -/
def assignedOpcodes : List Byte := [0x00, 0x01, 0x02, 0x03, 0x04, 0x10, 0x11, 0x20, 0xFF]

/-- A CMD word is well formed when none of the three conditions of R84 holds. -/
def cmdWordWellFormed (v : Word) : Bool :=
  v.extractLsb' 16 16 == 0 && assignedOpcodes.contains (v.extractLsb' 0 8) &&
    (v.extractLsb' 8 8 == 0 || [0x02, 0x10].contains (v.extractLsb' 0 8))

/-- The offsets a read may name: every mapped register but CMD (10_state.md R23). -/
def readableOffsets : List Nat :=
  [0x04, 0x08, 0x0C, 0x10, 0x20, 0x24, 0x28, 0x40, 0x44, 0x48, 0x4C, 0x50, 0x54, 0x58, 0x5C, 0x60, 0x70, 0x74]

/-- The offsets a write may name: CMD and the RW registers (10_state.md R23). -/
def writableOffsets : List Nat := [0x00, 0x40, 0x44, 0x48, 0x4C, 0x70, 0x74]

/-- An access is well formed when it raises no BusError (R61) and, as a CMD write, carries a legal word (R84). -/
def Access.wellFormed : Access → Bool
  | .read off n => n == 4 && off % 4 == 0 && readableOffsets.contains off
  | .write off n v => n == 4 && off % 4 == 0 && writableOffsets.contains off && (off != 0 || cmdWordWellFormed v)

end Sys2Proof
end

