-- ==== Sys2Proof/Machine/State.lean ====
section
/-! DEFINITION. The state of 10_state.md R40 to R43, the host agent's part of it (70_reset_and_hazards.md R246),
the reasons a step can stop, and the state after reset (10_state.md R46). -/

namespace Sys2Proof.Machine

open Sys2Proof.Config (Params)

/-- `rx_state` (10_state.md R41). -/
inductive RxState where
  /-- searching for an opening delimiter -/
  | hunt
  /-- OPEN: inside a frame, the next byte is plain -/
  | opened
  /-- inside a frame, the last byte was the escape byte -/
  | esc
  deriving DecidableEq, Repr

/-- `rx_result` (R41). -/
inductive RxResult where
  | none | ok | framingError | checksumMismatch
  deriving DecidableEq, Repr

/-- `rx_cause` (R41). -/
inductive RxCause where
  | none | overflow | danglingEsc | shortBody
  deriving DecidableEq, Repr

/-- `cmd_err` (R43, 60_exceptions.md R202). -/
inductive CmdErr where
  | ok | illegal | txState | txFull | rxBusy | rxState
  deriving DecidableEq, Repr

/-- `sd_status` (R42). -/
inductive SdStatus where
  | none | recognized | skip | shapeError
  deriving DecidableEq, Repr

/-- What the outside can do to the block between two steps (70_reset_and_hazards.md R248): one register access,
or the platform's reset event. -/
inductive HostMove where
  | access (a : Access)
  | reset
  deriving DecidableEq, Repr

/-- Every state element of the block (10_state.md R40 to R43), then the host agent's two lists. -/
structure State where
  /-- `tx_active` (R40): a TX frame is open -/
  txActive : Bool
  /-- `txq` (R40, R47): wire bytes produced and not yet read, head first -/
  txq : List Byte
  /-- `tx_acc` (R40): the checksum accumulator before finalisation -/
  txAcc : Half
  /-- `rx_state` (R41) -/
  rxState : RxState
  /-- `rx_body` (R41, R47): unescaped body bytes of the frame being received -/
  rxBody : List Byte
  /-- `rx_done` (R41): a frame outcome is latched -/
  rxDone : Bool
  /-- `rx_result` (R41) -/
  rxResult : RxResult
  /-- `rx_cause` (R41) -/
  rxCause : RxCause
  /-- `rx_content` (R41): content of the latched frame -/
  rxContent : List Byte
  /-- `rx_fcs_rx` (R41): checksum received -/
  rxFcsRx : Half
  /-- `rx_fcs_calc` (R41): checksum recomputed -/
  rxFcsCalc : Half
  /-- `rx_rd` (R41): read pointer of RX_DATA -/
  rxRd : Nat
  /-- `cmd_err` (R43): result of the most recent write to CMD -/
  cmdErr : CmdErr
  /-- `sd_tag` (R42) -/
  sdTag : Word
  /-- `sd_ts` (R42) -/
  sdTs : Word
  /-- `sd_val_lo` (R42) -/
  sdValLo : Word
  /-- `sd_val_hi` (R42) -/
  sdValHi : Word
  /-- `sd_status` (R42) -/
  sdStatus : SdStatus
  /-- `sd_qidx` (R42) -/
  sdQidx : BitVec 4
  /-- `sd_width` (R42) -/
  sdWidth : Byte
  /-- `sd_exp` (R42), two's complement -/
  sdExp : Byte
  /-- `sd_reclen` (R42) -/
  sdReclen : Byte
  /-- `sd_code` (R42) -/
  sdCode : Code
  /-- `sd_mant` (R42) -/
  sdMant : Dword
  /-- `sd_tstamp` (R42) -/
  sdTstamp : Word
  /-- `range_start` (R42) -/
  rangeStart : Word
  /-- `range_end` (R42) -/
  rangeEnd : Word
  /-- the model's own (notes/assumptions/2.md): what the host still does, next first -/
  hostMoves : List HostMove
  /-- the model's own (notes/assumptions/2.md): the values the host's reads returned, oldest first -/
  hostReads : List Word
  deriving DecidableEq, Repr

/-- Why the machine stops with a fault. -/
inductive Fault where
  /-- Raised by the step when the host's access fails a check of 20_memory.md R61. 60_exceptions.md R201: "A model
  must treat a bus error as a fault of the host program". Safe: no element of the block has changed, and the
  run is not continued (notes/assumptions/3.md). -/
  | busError (why : BusCheck)
  deriving DecidableEq, Repr

/-- Why the machine has no meaning for an instruction. -/
inductive Refusal where
  /-- Raised by an arm of `exec` whose instruction has no meaning yet: by none now. Safe: the run stops. -/
  | notModelled (mnemonic : String)
  deriving DecidableEq, Repr

/-- The reset values of 10_state.md R46 for given parameters; the host has no move left and has read nothing. -/
def State.resetWith (P : Params) : State where
  txActive := false
  txq := []
  txAcc := P.fcsInit
  rxState := .hunt
  rxBody := []
  rxDone := false
  rxResult := .none
  rxCause := .none
  rxContent := []
  rxFcsRx := 0
  rxFcsCalc := 0
  rxRd := 0
  cmdErr := .ok
  sdTag := 0
  sdTs := 0
  sdValLo := 0
  sdValHi := 0
  sdStatus := .none
  sdQidx := 0
  sdWidth := 0
  sdExp := 0
  sdReclen := 0
  sdCode := 0
  sdMant := 0
  sdTstamp := 0
  rangeStart := 0
  rangeEnd := 0
  hostMoves := []
  hostReads := []

/-- The machine right after reset (70_reset_and_hazards.md R230). -/
def State.reset : State := State.resetWith Config.params

end Sys2Proof.Machine
end

