-- ==== Sys2Proof/Machine/Ops.lean ====
section
/-! DEFINITION. The operations the meanings share: byte order (00_scope.md R9), how a command ends
(60_exceptions.md R202), the TX FIFO (41_tx_framer.md R120, R125), the RX result latch (42_rx_deframer.md R146),
the scalar decoder's output latch (43_scalar_decoder.md R163), the value a read returns to the host, the host's
next move, and reset. The block takes no trap (60_exceptions.md R212): `State.failWith` is all that a command
error does. -/

namespace Sys2Proof.Machine

open Sys2Proof.Config (Params)

/-! ### Bytes of wider values (00_scope.md R9) -/

/-- `lo8(x) = x[7:0]` -/
def lo8 (x : Half) : Byte := x.extractLsb' 0 8

/-- `hi8(x) = x[15:8]` -/
def hi8 (x : Half) : Byte := x.extractLsb' 8 8

/-- `LE16(b0, b1) = (b1, b0)`, b1 in the high bits -/
def le16 (b0 b1 : Byte) : Half := b1 ++ b0

/-- `LE32(b0, b1, b2, b3)`, b3 in the high bits -/
def le32 (b0 b1 b2 b3 : Byte) : Word := ((b3 ++ b2) ++ b1) ++ b0

/-- `bytesLE32(w) = [w[7:0], w[15:8], w[23:16], w[31:24]]` -/
def bytesLE32 (w : Word) : List Byte :=
  [w.extractLsb' 0 8, w.extractLsb' 8 8, w.extractLsb' 16 8, w.extractLsb' 24 8]

/-! ### How a write to CMD ends (60_exceptions.md R202, 10_state.md R43) -/

/-- `fail(code)`: the command ends with `cmd_err <- code` and no other change. -/
def State.failWith (s : State) (code : CmdErr) : State := { s with cmdErr := code }

/-- `cmd_err <- 0`, the end of every command that does not fail (30_encoding.md R80). -/
def State.succeed (s : State) : State := { s with cmdErr := .ok }

/-! ### What a read gives the host (70_reset_and_hazards.md R246) -/

/-- The access returns `v`: the host's list of read values grows by it. -/
def State.returnRead (s : State) (v : Word) : State := { s with hostReads := s.hostReads ++ [v] }

/-! ### The TX FIFO -/

/-- `ROOM_OK(out)` (41_tx_framer.md R120). -/
def roomOk (P : Params) (s : State) (out : List Byte) : Bool := decide (P.txqDepth - s.txq.length ≥ out.length)

/-- `push(txq, out)` (00_scope.md R10): at the tail. -/
def State.pushTx (s : State) (out : List Byte) : State := { s with txq := s.txq ++ out }

/-- The byte at the head of `txq` with the state after it is popped (41_tx_framer.md R125), if there is one. -/
def State.popTx (s : State) : Option (Byte × State) :=
  match s.txq with
  | [] => none
  | b :: rest => some (b, { s with txq := rest })

/-! ### The RX result latch -/

/-- `LATCH(kind, cause, content, frx, fcalc)` (42_rx_deframer.md R146). -/
def State.latch (s : State) (kind : RxResult) (cause : RxCause) (content : List Byte) (frx fcalc : Half) : State :=
  { s with
    rxDone := true
    rxResult := kind
    rxCause := cause
    rxContent := content
    rxFcsRx := frx
    rxFcsCalc := fcalc
    rxRd := 0
    rxBody := [] }

/-- The release of the latched outcome (42_rx_deframer.md R147): `rx_state` and `rx_body` are not changed. -/
def State.unlatch (s : State) : State :=
  { s with
    rxDone := false
    rxResult := .none
    rxCause := .none
    rxContent := []
    rxFcsRx := 0
    rxFcsCalc := 0
    rxRd := 0 }

/-- The next content byte that RX_DATA would return (42_rx_deframer.md R148), if it would return one. -/
def State.nextContent (s : State) : Option Byte :=
  if s.rxDone = true ∧ s.rxResult = .ok then s.rxContent[s.rxRd]? else none

/-! ### The scalar decoder's outputs -/

/-- Set the six outputs that depend on how the record was recognised (43_scalar_decoder.md R163). -/
def State.sdLatch (s : State) (status : SdStatus) (qidx : BitVec 4) (width exp reclen : Byte) (mant : Dword) : State :=
  { s with
    sdStatus := status
    sdQidx := qidx
    sdWidth := width
    sdExp := exp
    sdReclen := reclen
    sdMant := mant }

/-! ### Reset and the host's moves -/

/-- Reset of the block (70_reset_and_hazards.md R230, R231): every state element takes its reset value (10_state.md
R46). What the host still does, and what it has read, is not the block's. -/
def resetBlock (P : Params) (s : State) : State :=
  { State.resetWith P with hostMoves := s.hostMoves, hostReads := s.hostReads }

/-- The host's next move, with the state in which it is made; none when its program has ended (R246). -/
def nextMove (s : State) : Option (HostMove × State) :=
  match s.hostMoves with
  | [] => none
  | m :: rest => some (m, { s with hostMoves := rest })

end Sys2Proof.Machine
end

