-- ==== Sys2Proof/Machine/Control.lean ====
section
/-! DEFINITION. The control commands of 44_control.md: NOP and SRESET. -/

namespace Sys2Proof.Machine

/-- `NOP` (R180): `cmd_err <- 0`. -/
def execNop (s : State) : Host.Outcome State Fault Refusal := .next s.succeed

/-- `SRESET` (R181): every state element takes its reset value. -/
def execSreset (s : State) : Host.Outcome State Fault Refusal := .next (resetBlock Config.params s)

end Sys2Proof.Machine
end

