-- ==== Sys2Proof/Decode.lean ====
section
/-! DEFINITION. The register map, the decoder of a host access (total, rejecting by name) and the encoder, from
10_state.md R23, 20_memory.md R61 and 30_encoding.md R80 to R86. -/

namespace Sys2Proof

/-- The nineteen mapped registers (10_state.md R23). -/
inductive Reg where
  | cmd | status | txData | txLevel | txFcs | rxData | rxStatus | rxFcs
  | sdTag | sdTs | sdValLo | sdValHi | sdResult | sdCode | sdMantLo | sdMantHi | sdTstamp
  | rangeStart | rangeEnd
  deriving DecidableEq, Repr

/-- The access column of R23. -/
inductive RegAccess where
  /-- write-only -/
  | wo
  /-- read-only -/
  | ro
  /-- read-write -/
  | rw
  /-- read-only with a side effect on read -/
  | roPop
  deriving DecidableEq, Repr

/-- What the decoder answers of an access. -/
inductive Decoded where
  /-- a row of the opcode table -/
  | instr (i : Instr)
  /-- a CMD write of an illegal word, with the first check that fails (30_encoding.md R84) -/
  | illegal (why : CmdCheck)
  /-- an access that raises BusError, with the first check that fails (20_memory.md R61) -/
  | busError (why : BusCheck)
  deriving DecidableEq, Repr

/-- The offset column of R23. -/
def Reg.offset : Reg → Nat
  | .cmd => 0x00 | .status => 0x04 | .txData => 0x08 | .txLevel => 0x0C | .txFcs => 0x10
  | .rxData => 0x20 | .rxStatus => 0x24 | .rxFcs => 0x28
  | .sdTag => 0x40 | .sdTs => 0x44 | .sdValLo => 0x48 | .sdValHi => 0x4C
  | .sdResult => 0x50 | .sdCode => 0x54 | .sdMantLo => 0x58 | .sdMantHi => 0x5C | .sdTstamp => 0x60
  | .rangeStart => 0x70 | .rangeEnd => 0x74

/-- The access column of R23. -/
def Reg.access : Reg → RegAccess
  | .cmd => .wo
  | .txData => .roPop | .rxData => .roPop
  | .status => .ro | .txLevel => .ro | .txFcs => .ro | .rxStatus => .ro | .rxFcs => .ro
  | .sdResult => .ro | .sdCode => .ro | .sdMantLo => .ro | .sdMantHi => .ro | .sdTstamp => .ro
  | .sdTag => .rw | .sdTs => .rw | .sdValLo => .rw | .sdValHi => .rw | .rangeStart => .rw | .rangeEnd => .rw

/-- The rows of R23, in its order. -/
def Reg.all : List Reg :=
  [.cmd, .status, .txData, .txLevel, .txFcs, .rxData, .rxStatus, .rxFcs, .sdTag, .sdTs, .sdValLo, .sdValHi,
   .sdResult, .sdCode, .sdMantLo, .sdMantHi, .sdTstamp, .rangeStart, .rangeEnd]

/-- The register mapped at an offset, if one is. -/
def regAt (off : Nat) : Option Reg := Reg.all.find? fun r => r.offset == off

/-! ### The command word (30_encoding.md R80) -/

/-- OPC, bits [7:0]. -/
def opcOf (v : Word) : Byte := v.extractLsb' 0 8

/-- ARG, bits [15:8]. -/
def argOf (v : Word) : Byte := v.extractLsb' 8 8

/-- RSV, bits [31:16]. -/
def rsvOf (v : Word) : Half := v.extractLsb' 16 16

/-- The opcode map of R83; `arg` is used by TX_BYTE and RX_BYTE only. -/
def commandOf (opc arg : Byte) : Option Instr :=
  if opc = 0x00 then some .nop
  else if opc = 0x01 then some .txStart
  else if opc = 0x02 then some (.txByte arg)
  else if opc = 0x03 then some .txRange
  else if opc = 0x04 then some .txEnd
  else if opc = 0x10 then some (.rxByte arg)
  else if opc = 0x11 then some .rxAck
  else if opc = 0x20 then some .sdDecode
  else if opc = 0xFF then some .sreset
  else none

/-- Whether an opcode takes an ARG byte (R80). -/
def takesArg (opc : Byte) : Bool := opc == 0x02 || opc == 0x10

/-- Decode a word written to CMD: RSV, then OPC, then ARG (R80, 60_exceptions.md R209). -/
def decodeCmd (v : Word) : Decoded :=
  if rsvOf v ≠ 0 then .illegal .rsv
  else match commandOf (opcOf v) (argOf v) with
    | none => .illegal .opc
    | some i => if argOf v ≠ 0 ∧ takesArg (opcOf v) = false then .illegal .arg else .instr i

/-! ### Host accesses (20_memory.md R61) -/

/-- The read of a register, for every register that may be read (44_control.md R183, R125, R148). -/
def readInstr : Reg → Option Instr
  | .cmd => none
  | .status => some .rdStatus
  | .txData => some .rdTxData
  | .txLevel => some .rdTxLevel
  | .txFcs => some .rdTxFcs
  | .rxData => some .rdRxData
  | .rxStatus => some .rdRxStatus
  | .rxFcs => some .rdRxFcs
  | .sdTag => some .rdSdTag
  | .sdTs => some .rdSdTs
  | .sdValLo => some .rdSdValLo
  | .sdValHi => some .rdSdValHi
  | .sdResult => some .rdSdResult
  | .sdCode => some .rdSdCode
  | .sdMantLo => some .rdSdMantLo
  | .sdMantHi => some .rdSdMantHi
  | .sdTstamp => some .rdSdTstamp
  | .rangeStart => some .rdRangeStart
  | .rangeEnd => some .rdRangeEnd

/-- What a write of `v` to a register is: a command, a plain write (44_control.md R182), or nothing legal. -/
def decodeWrite (v : Word) : Reg → Decoded
  | .cmd => decodeCmd v
  | .sdTag => .instr (.wrSdTag v)
  | .sdTs => .instr (.wrSdTs v)
  | .sdValLo => .instr (.wrSdValLo v)
  | .sdValHi => .instr (.wrSdValHi v)
  | .rangeStart => .instr (.wrRangeStart v)
  | .rangeEnd => .instr (.wrRangeEnd v)
  | .status => .busError .writeOfReadOnly
  | .txData => .busError .writeOfReadOnly
  | .txLevel => .busError .writeOfReadOnly
  | .txFcs => .busError .writeOfReadOnly
  | .rxData => .busError .writeOfReadOnly
  | .rxStatus => .busError .writeOfReadOnly
  | .rxFcs => .busError .writeOfReadOnly
  | .sdResult => .busError .writeOfReadOnly
  | .sdCode => .busError .writeOfReadOnly
  | .sdMantLo => .busError .writeOfReadOnly
  | .sdMantHi => .busError .writeOfReadOnly
  | .sdTstamp => .busError .writeOfReadOnly

/-- The checks (1) to (3) of R61, then the register the access names. -/
def locate (off n : Nat) : Except BusCheck Reg :=
  if n ≠ 4 then .error .size
  else if off % 4 ≠ 0 then .error .misaligned
  else match regAt off with
    | none => .error .unmapped
    | some r => .ok r

/-- Decode a host access: total, every rejection named (R61, R84). -/
def decode : Access → Decoded
  | .read off n =>
    match locate off n with
    | .error why => .busError why
    | .ok r => match readInstr r with
      | some i => .instr i
      | none => .busError .readOfWriteOnly
  | .write off n v =>
    match locate off n with
    | .error why => .busError why
    | .ok r => decodeWrite v r

/-! ### The encoder -/

/-- The CMD word of an opcode and its ARG byte (R80). -/
def cmdWord (opc arg : Byte) : Word := (0#16 ++ arg) ++ opc

/-- The write of a CMD word. -/
def cmdAccess (opc arg : Byte) : Access := .write 0x00 4 (cmdWord opc arg)

/-- The access of an instruction (R83, R86; 10_state.md R23). -/
def encode : Instr → Access
  | .nop => cmdAccess 0x00 0
  | .txStart => cmdAccess 0x01 0
  | .txByte b => cmdAccess 0x02 b
  | .txRange => cmdAccess 0x03 0
  | .txEnd => cmdAccess 0x04 0
  | .rxByte w => cmdAccess 0x10 w
  | .rxAck => cmdAccess 0x11 0
  | .sdDecode => cmdAccess 0x20 0
  | .sreset => cmdAccess 0xFF 0
  | .rdStatus => .read 0x04 4
  | .rdTxData => .read 0x08 4
  | .rdTxLevel => .read 0x0C 4
  | .rdTxFcs => .read 0x10 4
  | .rdRxData => .read 0x20 4
  | .rdRxStatus => .read 0x24 4
  | .rdRxFcs => .read 0x28 4
  | .rdSdTag => .read 0x40 4
  | .rdSdTs => .read 0x44 4
  | .rdSdValLo => .read 0x48 4
  | .rdSdValHi => .read 0x4C 4
  | .rdSdResult => .read 0x50 4
  | .rdSdCode => .read 0x54 4
  | .rdSdMantLo => .read 0x58 4
  | .rdSdMantHi => .read 0x5C 4
  | .rdSdTstamp => .read 0x60 4
  | .rdRangeStart => .read 0x70 4
  | .rdRangeEnd => .read 0x74 4
  | .wrSdTag v => .write 0x40 4 v
  | .wrSdTs v => .write 0x44 4 v
  | .wrSdValLo v => .write 0x48 4 v
  | .wrSdValHi v => .write 0x4C 4 v
  | .wrRangeStart v => .write 0x70 4 v
  | .wrRangeEnd v => .write 0x74 4 v

/-- Whether an instruction is a write to CMD (the format `C` rows of the opcode table). -/
def Instr.isCommand : Instr → Bool
  | .nop => true | .txStart => true | .txByte _ => true | .txRange => true | .txEnd => true
  | .rxByte _ => true | .rxAck => true | .sdDecode => true | .sreset => true
  | .rdStatus => false | .rdTxData => false | .rdTxLevel => false | .rdTxFcs => false
  | .rdRxData => false | .rdRxStatus => false | .rdRxFcs => false
  | .rdSdTag => false | .rdSdTs => false | .rdSdValLo => false | .rdSdValHi => false
  | .rdSdResult => false | .rdSdCode => false | .rdSdMantLo => false | .rdSdMantHi => false
  | .rdSdTstamp => false | .rdRangeStart => false | .rdRangeEnd => false
  | .wrSdTag _ => false | .wrSdTs _ => false | .wrSdValLo _ => false | .wrSdValHi _ => false
  | .wrRangeStart _ => false | .wrRangeEnd _ => false

/-! ### Assembly forms (30_encoding.md R86) -/

/-- One line of a host program. -/
inductive AsmLine where
  /-- a command mnemonic with its byte, if it takes one -/
  | command (opc arg : Byte)
  /-- `WR REG, v` -/
  | wr (r : Reg) (v : Word)
  /-- `RD REG` -/
  | rd (r : Reg)
  /-- `CMD v`, a raw word, legal or not -/
  | raw (v : Word)
  deriving DecidableEq, Repr

/-- The access column of R86. -/
def AsmLine.access : AsmLine → Access
  | .command opc arg => cmdAccess opc arg
  | .wr r v => .write r.offset 4 v
  | .rd r => .read r.offset 4
  | .raw v => .write 0x00 4 v

/-! ### The host's probe of the opcode table -/

/-- The access that a word of the opcode table stands for (notes/assumptions/5.md). A format `C` row has 32 bits:
they are the word written to CMD. A format `A` row gives the offset in bits [6:0] and says the direction
outside its bits; here bit 7 is the direction (1 for a write) and the bits from 8 on are the value written. -/
def tableAccess (nbits w : Nat) : Access :=
  if nbits = 32 then .write 0x00 4 (BitVec.ofNat 32 w)
  else if w / 128 % 2 = 1 then .write (w % 128) 4 (BitVec.ofNat 32 (w / 256))
  else .read (w % 128) 4

/-- The instruction the decoder reads from a word of the opcode table. -/
def decodeTableWord (nbits w : Nat) : Option Instr :=
  match decode (tableAccess nbits w) with
  | .instr i => some i
  | .illegal _ => none
  | .busError _ => none

end Sys2Proof
end

