-- ==== Sys2Proof/Machine/Flags.lean ====
section
/-! DEFINITION. The status fields: the code of each enumerated element and the 32-bit value each register reads as
(10_state.md R25 to R39). Reserved fields read 0 (R45). A concatenation lists a register's fields from bit 31
down to bit 0. -/

namespace Sys2Proof.Machine

/-- The code of `rx_state` (10_state.md R25). -/
def RxState.code : RxState → BitVec 2
  | .hunt => 0
  | .opened => 1
  | .esc => 2

/-- The code of `rx_result` (10_state.md R30). -/
def RxResult.code : RxResult → BitVec 2
  | .none => 0
  | .ok => 1
  | .framingError => 2
  | .checksumMismatch => 3

/-- The code of `rx_cause` (10_state.md R30). -/
def RxCause.code : RxCause → BitVec 4
  | .none => 0
  | .overflow => 1
  | .danglingEsc => 2
  | .shortBody => 3

/-- The code of `cmd_err` (60_exceptions.md R202). -/
def CmdErr.code : CmdErr → BitVec 4
  | .ok => 0
  | .illegal => 1
  | .txState => 2
  | .txFull => 3
  | .rxBusy => 4
  | .rxState => 5

/-- The code of `sd_status` (10_state.md R35). -/
def SdStatus.code : SdStatus → BitVec 2
  | .none => 0
  | .recognized => 1
  | .skip => 2
  | .shapeError => 3

/-- STATUS (10_state.md R25). -/
def statusWord (s : State) : Word :=
  ((((0#20 ++ s.cmdErr.code) ++ 0#4) ++ s.rxState.code) ++ BitVec.ofBool s.rxDone) ++ BitVec.ofBool s.txActive

/-- A byte returned by TX_DATA or RX_DATA: VALID = 1 (10_state.md R26, R29). -/
def validByte (b : Byte) : Word := (0#23 ++ 1#1) ++ b

/-- TX_DATA or RX_DATA with nothing to return: VALID = 0, DATA = 0. -/
def noByte : Word := 0

/-- TX_LEVEL (10_state.md R27). -/
def txLevelWord (s : State) : Word := 0#16 ++ BitVec.ofNat 16 s.txq.length

/-- TX_FCS (10_state.md R28). -/
def txFcsWord (s : State) : Word := 0#16 ++ s.txAcc

/-- RX_STATUS (10_state.md R30). -/
def rxStatusWord (s : State) : Word :=
  (((BitVec.ofNat 16 s.rxContent.length ++ 0#8) ++ s.rxCause.code) ++ 0#2) ++ s.rxResult.code

/-- RX_FCS (10_state.md R31). -/
def rxFcsWord (s : State) : Word := s.rxFcsCalc ++ s.rxFcsRx

/-- SD_RESULT (10_state.md R35). -/
def sdResultWord (s : State) : Word :=
  ((((s.sdReclen ++ s.sdExp) ++ s.sdWidth) ++ s.sdQidx) ++ 0#2) ++ s.sdStatus.code

/-- SD_CODE (10_state.md R36). -/
def sdCodeWord (s : State) : Word := 0#8 ++ s.sdCode

/-- SD_MANT_LO (10_state.md R37). -/
def sdMantLoWord (s : State) : Word := s.sdMant.extractLsb' 0 32

/-- SD_MANT_HI (10_state.md R37). -/
def sdMantHiWord (s : State) : Word := s.sdMant.extractLsb' 32 32

/-- What a read of a register would return in this state, without its side effect; none for the write-only CMD
(10_state.md R23 to R39). -/
def regValue (s : State) : Reg → Option Word
  | .cmd => none
  | .status => some (statusWord s)
  | .txData => some (match s.txq with | [] => noByte | b :: _ => validByte b)
  | .txLevel => some (txLevelWord s)
  | .txFcs => some (txFcsWord s)
  | .rxData => some (match s.nextContent with | none => noByte | some b => validByte b)
  | .rxStatus => some (rxStatusWord s)
  | .rxFcs => some (rxFcsWord s)
  | .sdTag => some s.sdTag
  | .sdTs => some s.sdTs
  | .sdValLo => some s.sdValLo
  | .sdValHi => some s.sdValHi
  | .sdResult => some (sdResultWord s)
  | .sdCode => some (sdCodeWord s)
  | .sdMantLo => some (sdMantLoWord s)
  | .sdMantHi => some (sdMantHiWord s)
  | .sdTstamp => some s.sdTstamp
  | .rangeStart => some s.rangeStart
  | .rangeEnd => some s.rangeEnd

end Sys2Proof.Machine
end

