-- ==== Sys2Proof/Machine/RegisterRead.lean ====
section
/-! DEFINITION. The plain register reads of 44_control.md R183: each returns its register's value (10_state.md R25
to R39) and changes no element of the block. The two reads that pop are in TxFramer.lean and RxDeframer.lean. -/

namespace Sys2Proof.Machine

/-- `RD STATUS` (R183, 10_state.md R25). -/
def execRdStatus (s : State) : Host.Outcome State Fault Refusal := .next (s.returnRead (statusWord s))

/-- `RD TX_LEVEL` (R183, 10_state.md R27). -/
def execRdTxLevel (s : State) : Host.Outcome State Fault Refusal := .next (s.returnRead (txLevelWord s))

/-- `RD TX_FCS` (R183, 10_state.md R28). -/
def execRdTxFcs (s : State) : Host.Outcome State Fault Refusal := .next (s.returnRead (txFcsWord s))

/-- `RD RX_STATUS` (R183, 10_state.md R30). -/
def execRdRxStatus (s : State) : Host.Outcome State Fault Refusal := .next (s.returnRead (rxStatusWord s))

/-- `RD RX_FCS` (R183, 10_state.md R31). -/
def execRdRxFcs (s : State) : Host.Outcome State Fault Refusal := .next (s.returnRead (rxFcsWord s))

/-- `RD SD_TAG` (R183, 10_state.md R32). -/
def execRdSdTag (s : State) : Host.Outcome State Fault Refusal := .next (s.returnRead s.sdTag)

/-- `RD SD_TS` (R183, 10_state.md R33). -/
def execRdSdTs (s : State) : Host.Outcome State Fault Refusal := .next (s.returnRead s.sdTs)

/-- `RD SD_VAL_LO` (R183, 10_state.md R34). -/
def execRdSdValLo (s : State) : Host.Outcome State Fault Refusal := .next (s.returnRead s.sdValLo)

/-- `RD SD_VAL_HI` (R183, 10_state.md R34). -/
def execRdSdValHi (s : State) : Host.Outcome State Fault Refusal := .next (s.returnRead s.sdValHi)

/-- `RD SD_RESULT` (R183, 10_state.md R35). -/
def execRdSdResult (s : State) : Host.Outcome State Fault Refusal := .next (s.returnRead (sdResultWord s))

/-- `RD SD_CODE` (R183, 10_state.md R36). -/
def execRdSdCode (s : State) : Host.Outcome State Fault Refusal := .next (s.returnRead (sdCodeWord s))

/-- `RD SD_MANT_LO` (R183, 10_state.md R37). -/
def execRdSdMantLo (s : State) : Host.Outcome State Fault Refusal := .next (s.returnRead (sdMantLoWord s))

/-- `RD SD_MANT_HI` (R183, 10_state.md R37). -/
def execRdSdMantHi (s : State) : Host.Outcome State Fault Refusal := .next (s.returnRead (sdMantHiWord s))

/-- `RD SD_TSTAMP` (R183, 10_state.md R38). -/
def execRdSdTstamp (s : State) : Host.Outcome State Fault Refusal := .next (s.returnRead s.sdTstamp)

/-- `RD RANGE_START` (R183, 10_state.md R39). -/
def execRdRangeStart (s : State) : Host.Outcome State Fault Refusal := .next (s.returnRead s.rangeStart)

/-- `RD RANGE_END` (R183, 10_state.md R39). -/
def execRdRangeEnd (s : State) : Host.Outcome State Fault Refusal := .next (s.returnRead s.rangeEnd)

end Sys2Proof.Machine
end

