-- ==== Sys2Proof/Machine/RegisterWrite.lean ====
section
/-! DEFINITION. The plain register writes of 44_control.md R182: the whole 32 bits are stored and nothing else
changes. -/

namespace Sys2Proof.Machine

/-- `WR SD_TAG, v` (R182). -/
def execWrSdTag (v : Word) (s : State) : Host.Outcome State Fault Refusal := .next { s with sdTag := v }

/-- `WR SD_TS, v` (R182). -/
def execWrSdTs (v : Word) (s : State) : Host.Outcome State Fault Refusal := .next { s with sdTs := v }

/-- `WR SD_VAL_LO, v` (R182). -/
def execWrSdValLo (v : Word) (s : State) : Host.Outcome State Fault Refusal := .next { s with sdValLo := v }

/-- `WR SD_VAL_HI, v` (R182). -/
def execWrSdValHi (v : Word) (s : State) : Host.Outcome State Fault Refusal := .next { s with sdValHi := v }

/-- `WR RANGE_START, v` (R182). -/
def execWrRangeStart (v : Word) (s : State) : Host.Outcome State Fault Refusal := .next { s with rangeStart := v }

/-- `WR RANGE_END, v` (R182). -/
def execWrRangeEnd (v : Word) (s : State) : Host.Outcome State Fault Refusal := .next { s with rangeEnd := v }

end Sys2Proof.Machine
end

