-- ==== Sys2Proof/Machine/Frame.lean ====
section
/-! DEFINITION. The frame primitives of 40_frame_primitives.md: escaping, the checksum, the frame layout. -/

namespace Sys2Proof.Machine

open Sys2Proof.Config (Params)

/-- `DELIM` (R100). -/
def delim : Byte := 0x7E

/-- `ESCB` (R100). -/
def escb : Byte := 0x7D

/-- `XMASK` (R100). -/
def xmask : Byte := 0x20

/-- The escaped set `E` (R101). -/
def escapedSet : List Byte := [0x7E, 0x7D, 0x11, 0x12, 0x13]

/-- `ESC(b)` (R102). -/
def esc (b : Byte) : List Byte := if b ∈ escapedSet then [escb, b ^^^ xmask] else [b]

/-- `ESCS(l)` (R103). -/
def escs : List Byte → List Byte
  | [] => []
  | b :: l => esc b ++ escs l

/-- The body byte that the escape pair `[0x7D, x]` stands for; none when `x` is a delimiter (R104). -/
def unescPair (x : Byte) : Option Byte := if x = delim then none else some (x ^^^ xmask)

/-- Unescaping pair by pair (R104, R110), the flag saying that the last byte was an escape byte: none when a
delimiter or a dangling escape byte is met. -/
def unescFrom : Bool → List Byte → Option (List Byte)
  | false, [] => some []
  | true, [] => none
  | false, w :: ws =>
    if w = delim then none
    else if w = escb then unescFrom true ws
    else (unescFrom false ws).map (w :: ·)
  | true, x :: ws =>
    match unescPair x with
    | none => none
    | some b => (unescFrom false ws).map (b :: ·)

/-- Unescaping of a byte list (R104, R110). -/
def unescs (ws : List Byte) : Option (List Byte) := unescFrom false ws

/-- The accumulator after the bytes `l`, from `acc` (R105). -/
def fcsFold (P : Params) (acc : Half) (l : List Byte) : Half := l.foldl P.fcsUpd acc

/-- `FCS16(c)` (R105). -/
def fcs16 (P : Params) (c : List Byte) : Half := P.fcsFin (fcsFold P P.fcsInit c)

/-- The two checksum bytes as they stand in a frame: little-endian (R107). -/
def fcsBytes (f : Half) : List Byte := [lo8 f, hi8 f]

/-- The body of content `c` (R107). -/
def bodyOf (P : Params) (c : List Byte) : List Byte := c ++ fcsBytes (fcs16 P c)

/-- `ENCODE_FRAME(c)` (R108). -/
def encodeFrame (P : Params) (c : List Byte) : List Byte := [delim] ++ escs (bodyOf P c) ++ [delim]

/-- A byte list is a well-formed frame (R111). -/
def IsFrame (P : Params) (f : List Byte) : Prop :=
  ∃ c : List Byte, c.length + 2 ≤ P.rxMaxBody ∧ f = encodeFrame P c

end Sys2Proof.Machine
end

