-- ==== Sys2Proof/Machine/RxDeframer.lean ====
section
/-! DEFINITION. The RX deframer of 42_rx_deframer.md: RX_BYTE, RX_ACK and the read of RX_DATA. -/

namespace Sys2Proof.Machine

open Sys2Proof.Config (Params)

/-- `APPEND(v)` (R143). -/
def rxAppend (P : Params) (v : Byte) (s : State) : State :=
  if s.rxBody.length = P.rxMaxBody then
    { s.latch .framingError .overflow [] 0 0 with rxState := .hunt }
  else { s with rxBody := s.rxBody ++ [v] }

/-- The content of a body: all but its last two bytes (R145). -/
def bodyContent (body : List Byte) : List Byte := body.take (body.length - 2)

/-- The checksum a body of at least two bytes ends with (R145). -/
def bodyFcs (body : List Byte) : Half := le16 (body.getD (body.length - 2) 0) (body.getD (body.length - 1) 0)

/-- `VERIFY()` (R145). -/
def rxVerify (P : Params) (s : State) : State :=
  if bodyFcs s.rxBody = fcs16 P (bodyContent s.rxBody) then
    s.latch .ok .none (bodyContent s.rxBody) (bodyFcs s.rxBody) (fcs16 P (bodyContent s.rxBody))
  else s.latch .checksumMismatch .none [] (bodyFcs s.rxBody) (fcs16 P (bodyContent s.rxBody))

/-- `CLOSE()` (R144): `rx_state` stays OPEN, since the closing delimiter opens the next frame (R140). -/
def rxClose (P : Params) (s : State) : State :=
  if s.rxBody.length = 0 then s
  else if s.rxBody.length = 1 then s.latch .framingError .shortBody [] 0 0
  else rxVerify P s

/-- One wire byte consumed while nothing is latched: the transitions of R141. -/
def rxConsume (P : Params) (w : Byte) (s : State) : State :=
  match s.rxState with
  | .hunt => if w = delim then { s with rxState := .opened, rxBody := [] } else s
  | .opened =>
    if w = delim then rxClose P s
    else if w = escb then { s with rxState := .esc }
    else rxAppend P w s
  | .esc =>
    if w = delim then { s.latch .framingError .danglingEsc [] 0 0 with rxState := .opened }
    else rxAppend P (w ^^^ xmask) { s with rxState := .opened }

/-- What RX_BYTE does (R142). -/
def rxByte (P : Params) (w : Byte) (s : State) : State :=
  if s.rxDone = true then s.failWith .rxBusy else (rxConsume P w s).succeed

/-- What RX_ACK does (R147). -/
def rxAck (s : State) : State := if s.rxDone = false then s.failWith .rxState else s.unlatch.succeed

/-- What the read of RX_DATA does (R148). -/
def readRxData (s : State) : State :=
  match s.nextContent with
  | none => s.returnRead noByte
  | some b => State.returnRead { s with rxRd := s.rxRd + 1 } (validByte b)

/-- `RX_BYTE w` (R142). -/
def execRxByte (w : Byte) (s : State) : Host.Outcome State Fault Refusal := .next (rxByte Config.params w s)

/-- `RX_ACK` (R147). -/
def execRxAck (s : State) : Host.Outcome State Fault Refusal := .next (rxAck s)

/-- `RD RX_DATA` (R148). -/
def execRdRxData (s : State) : Host.Outcome State Fault Refusal := .next (readRxData s)

end Sys2Proof.Machine
end

