-- ==== Sys2Proof/Machine/Operands.lean ====
section
/-! DEFINITION. The operands the commands take from data registers (30_encoding.md R82): the register range of
TX_RANGE, the fields and the raw value of SD_DECODE's record. The only immediate, ARG, is an argument of its
instruction (R81). -/

namespace Sys2Proof.Machine

open Sys2Proof.Config (Params)

/-- The eight content bytes of TX_RANGE: start first, little-endian (41_tx_framer.md R123). -/
def rangeBytes (s : State) : List Byte := bytesLE32 s.rangeStart ++ bytesLE32 s.rangeEnd

/-- The value shape, SD_TAG[31:24] (43_scalar_decoder.md R163). -/
def tagShape (tag : Word) : Byte := tag.extractLsb' 24 8

/-- The quantity code, SD_TAG[23:0] (R163). -/
def tagCode (tag : Word) : Code := tag.extractLsb' 0 24

/-- The 64-bit raw value of an 8-byte quantity: SD_VAL_HI in the high bits (R163). -/
def rawLong (s : State) : Dword := s.sdValHi ++ s.sdValLo

/-- The 32-bit raw value of a 4-byte quantity, extended as RAW_SIGNED says; SD_VAL_HI is ignored (R163). -/
def rawInt (P : Params) (s : State) : Dword :=
  if P.rawSigned then s.sdValLo.signExtend 64 else s.sdValLo.setWidth 64

end Sys2Proof.Machine
end

