-- ==== Sys2Proof/Machine/ScalarDecoder.lean ====
section
/-! DEFINITION. The scalar decoder of 43_scalar_decoder.md: the quantity table, the shape table and SD_DECODE. -/

namespace Sys2Proof.Machine

open Sys2Proof.Config (Params)

/-- The six rows of the quantity table (R161). -/
inductive Quantity where
  | prodToday | prodLifetime | spotAcPower | spotAcFrequency | operationTime | operationFeedinTime
  deriving DecidableEq, Repr

/-- The rows in the order of their index. -/
def Quantity.all : List Quantity :=
  [.prodToday, .prodLifetime, .spotAcPower, .spotAcFrequency, .operationTime, .operationFeedinTime]

/-- The index column of R161. -/
def Quantity.index : Quantity → BitVec 4
  | .prodToday => 1
  | .prodLifetime => 2
  | .spotAcPower => 3
  | .spotAcFrequency => 4
  | .operationTime => 5
  | .operationFeedinTime => 6

/-- The code column of R161. -/
def Quantity.code (P : Params) : Quantity → Code
  | .prodToday => P.codeProdToday
  | .prodLifetime => P.codeProdLifetime
  | .spotAcPower => P.codeSpotAcPower
  | .spotAcFrequency => P.codeSpotAcFrequency
  | .operationTime => P.codeOperationTime
  | .operationFeedinTime => P.codeOperationFeedinTime

/-- The width column of R161, in bytes. -/
def Quantity.width : Quantity → Byte
  | .prodToday => 8
  | .prodLifetime => 8
  | .spotAcPower => 4
  | .spotAcFrequency => 4
  | .operationTime => 8
  | .operationFeedinTime => 8

/-- The exp column of R161: the scale is 10^exp. -/
def Quantity.exp : Quantity → Int
  | .prodToday => -3
  | .prodLifetime => -3
  | .spotAcPower => 0
  | .spotAcFrequency => -2
  | .operationTime => -3
  | .operationFeedinTime => -3

/-- The quantity a code is recognised as: the row of least index that holds the code (R161). -/
def recognise (P : Params) (code : Code) : Option Quantity :=
  Quantity.all.find? fun q => q.code P == code

/-- The raw value of a recognised record (R163). -/
def rawValue (P : Params) (q : Quantity) (s : State) : Dword :=
  if q.width = 8 then rawLong s else rawInt P s

/-- The width an unrecognised record's shape implies (R162); none for STATUS, TEXT and any other shape. -/
def shapeWidth (P : Params) (shape : Byte) : Option Byte :=
  if shape = P.shapeLong then some 8 else if shape = P.shapeInt then some 4 else none

/-- What SD_DECODE does (R163). -/
def sdDecode (P : Params) (s : State) : State :=
  let out := { s with sdCode := tagCode s.sdTag, sdTstamp := s.sdTs }
  State.succeed <|
    match recognise P (tagCode s.sdTag) with
    | some q => out.sdLatch .recognized q.index q.width (BitVec.ofInt 8 q.exp) (8 + q.width) (rawValue P q s)
    | none =>
      match shapeWidth P (tagShape s.sdTag) with
      | some w => out.sdLatch .skip 0 w 0 (8 + w) 0
      | none => out.sdLatch .shapeError 0 0 0 0 0

/-- The integer `M` of a result: `sd_mant` as RAW_SIGNED says to read it (R164). -/
def mantissa (P : Params) (s : State) : Int := if P.rawSigned then s.sdMant.toInt else s.sdMant.toNat

/-- The exact value a RECOGNIZED result stands for, `M x 10^E` (R164); none for any other result. -/
def fixedPoint (P : Params) (s : State) : Option ℚ :=
  if s.sdStatus = .recognized then some (mantissa P s * (10 : ℚ) ^ s.sdExp.toInt) else none

/-- `SD_DECODE` (R163). -/
def execSdDecode (s : State) : Host.Outcome State Fault Refusal := .next (sdDecode Config.params s)

end Sys2Proof.Machine
end

