-- ==== Sys2Proof/Machine/TxFramer.lean ====
section
/-! DEFINITION. The TX framer of 41_tx_framer.md: TX_START, TX_BYTE, TX_RANGE, TX_END and the read of TX_DATA. The
state check comes before the room check (60_exceptions.md R209, R210). -/

namespace Sys2Proof.Machine

open Sys2Proof.Config (Params)

/-- What TX_START does (R121). -/
def txStart (P : Params) (s : State) : State :=
  if s.txActive = true then s.failWith .txState
  else if roomOk P s [delim] = false then s.failWith .txFull
  else State.succeed { s.pushTx [delim] with txAcc := P.fcsInit, txActive := true }

/-- What TX_BYTE and TX_RANGE do with the content bytes `bs`, all of them or nothing (R122, R123). -/
def txContent (P : Params) (bs : List Byte) (s : State) : State :=
  if s.txActive = false then s.failWith .txState
  else if roomOk P s (escs bs) = false then s.failWith .txFull
  else State.succeed { s.pushTx (escs bs) with txAcc := fcsFold P s.txAcc bs }

/-- What TX_END pushes: the checksum, escaped, and the closing delimiter (R124). -/
def txTrailer (P : Params) (s : State) : List Byte := escs (fcsBytes (P.fcsFin s.txAcc)) ++ [delim]

/-- What TX_END does (R124): `tx_acc` is not changed. -/
def txEnd (P : Params) (s : State) : State :=
  if s.txActive = false then s.failWith .txState
  else if roomOk P s (txTrailer P s) = false then s.failWith .txFull
  else State.succeed { s.pushTx (txTrailer P s) with txActive := false }

/-- What the read of TX_DATA does (R125). -/
def readTxData (s : State) : State :=
  match s.popTx with
  | none => s.returnRead noByte
  | some (b, s') => s'.returnRead (validByte b)

/-- `TX_START` (R121). -/
def execTxStart (s : State) : Host.Outcome State Fault Refusal := .next (txStart Config.params s)

/-- `TX_BYTE b` (R122). -/
def execTxByte (b : Byte) (s : State) : Host.Outcome State Fault Refusal := .next (txContent Config.params [b] s)

/-- `TX_RANGE` (R123). -/
def execTxRange (s : State) : Host.Outcome State Fault Refusal :=
  .next (txContent Config.params (rangeBytes s) s)

/-- `TX_END` (R124). -/
def execTxEnd (s : State) : Host.Outcome State Fault Refusal := .next (txEnd Config.params s)

/-- `RD TX_DATA` (R125). -/
def execRdTxData (s : State) : Host.Outcome State Fault Refusal := .next (readTxData s)

end Sys2Proof.Machine
end

