-- ==== Sys2Proof/Machine/Dispatch.lean ====
section
/-! DEFINITION. What each instruction does: one arm per row of spec/opcode_table.json, each one call of its meaning. -/

namespace Sys2Proof.Machine

def exec (i : Instr) (s : State) : Host.Outcome State Fault Refusal :=
  match i with
  | .nop => Sys2Proof.Machine.execNop s
  | .txStart => Sys2Proof.Machine.execTxStart s
  | .txByte b => Sys2Proof.Machine.execTxByte b s
  | .txRange => Sys2Proof.Machine.execTxRange s
  | .txEnd => Sys2Proof.Machine.execTxEnd s
  | .rxByte w => Sys2Proof.Machine.execRxByte w s
  | .rxAck => Sys2Proof.Machine.execRxAck s
  | .sdDecode => Sys2Proof.Machine.execSdDecode s
  | .sreset => Sys2Proof.Machine.execSreset s
  | .rdStatus => Sys2Proof.Machine.execRdStatus s
  | .rdTxData => Sys2Proof.Machine.execRdTxData s
  | .rdTxLevel => Sys2Proof.Machine.execRdTxLevel s
  | .rdTxFcs => Sys2Proof.Machine.execRdTxFcs s
  | .rdRxData => Sys2Proof.Machine.execRdRxData s
  | .rdRxStatus => Sys2Proof.Machine.execRdRxStatus s
  | .rdRxFcs => Sys2Proof.Machine.execRdRxFcs s
  | .rdSdTag => Sys2Proof.Machine.execRdSdTag s
  | .rdSdTs => Sys2Proof.Machine.execRdSdTs s
  | .rdSdValLo => Sys2Proof.Machine.execRdSdValLo s
  | .rdSdValHi => Sys2Proof.Machine.execRdSdValHi s
  | .rdSdResult => Sys2Proof.Machine.execRdSdResult s
  | .rdSdCode => Sys2Proof.Machine.execRdSdCode s
  | .rdSdMantLo => Sys2Proof.Machine.execRdSdMantLo s
  | .rdSdMantHi => Sys2Proof.Machine.execRdSdMantHi s
  | .rdSdTstamp => Sys2Proof.Machine.execRdSdTstamp s
  | .rdRangeStart => Sys2Proof.Machine.execRdRangeStart s
  | .rdRangeEnd => Sys2Proof.Machine.execRdRangeEnd s
  | .wrSdTag v => Sys2Proof.Machine.execWrSdTag v s
  | .wrSdTs v => Sys2Proof.Machine.execWrSdTs v s
  | .wrSdValLo v => Sys2Proof.Machine.execWrSdValLo v s
  | .wrSdValHi v => Sys2Proof.Machine.execWrSdValHi v s
  | .wrRangeStart v => Sys2Proof.Machine.execWrRangeStart v s
  | .wrRangeEnd v => Sys2Proof.Machine.execWrRangeEnd v s

end Sys2Proof.Machine
end

