-- ==== Sys2Proof/Machine/Step.lean ====
section
/-! DEFINITION. One step of the machine: the host's next move, carried out whole (00_scope.md R11, 20_memory.md R61,
R66). -/

namespace Sys2Proof.Machine

/-- One step. With no move left the block does nothing more (70_reset_and_hazards.md R246); a reset event resets
it (R230); an access runs its instruction, fails as an illegal command (30_encoding.md R84, 60_exceptions.md
R202), or is a bus error, a fault of the host's program (60_exceptions.md R201). -/
def step (s : State) : Host.Outcome State Fault Refusal :=
  match nextMove s with
  | none => .next s
  | some (.reset, s') => .next (resetBlock Config.params s')
  | some (.access a, s') =>
    match decode a with
    | .instr i => exec i s'
    | .illegal _ => .next (s'.failWith .illegal)
    | .busError why => .fault (.busError why)

/-- The state in which the host's next move is the access that a word of the opcode table stands for
(notes/assumptions/2.md and 5.md): a program is loaded from outside the machine, and this stands for that load. -/
def State.withFetchWord (s : State) (nbits w : Nat) : State :=
  { s with hostMoves := .access (tableAccess nbits w) :: s.hostMoves }

end Sys2Proof.Machine
end

