-- ==== Sys2Proof/Machine/HostProgram.lean ====
section
/-! DEFINITION. What the host does with the block: the pseudo-instructions of 30_encoding.md R87, the packing of a
record (43_scalar_decoder.md R160), and how a list of instructions runs. A pseudo-instruction is a list of
accesses, each its own step; the two read loops stop at the first read with VALID = 0. -/

namespace Sys2Proof.Machine

/-- The accesses of a list of instructions, as moves of the host (70_reset_and_hazards.md R246). -/
def movesOf (is : List Instr) : List HostMove := is.map fun i => .access (encode i)

/-- The instructions one after the other, stopping at the first that gives no next state. -/
def runInstrs : List Instr → State → Host.Outcome State Fault Refusal
  | [], s => .next s
  | i :: is, s =>
    match exec i s with
    | .next t => runInstrs is t
    | .fault why => .fault why
    | .refused why => .refused why

/-- `TX_FRAME c0, ..., c(n-1)` (R87). -/
def txFrame (c : List Byte) : List Instr := .txStart :: (c.map .txByte ++ [.txEnd])

/-- `TX_RANGE_FRAME s, e` (R87). -/
def txRangeFrame (first last : Word) : List Instr :=
  [.wrRangeStart first, .wrRangeEnd last, .txStart, .txRange, .txEnd]

/-- `RX_FEED w0, ..., w(m-1)` (R87). -/
def rxFeed (ws : List Byte) : List Instr := ws.map .rxByte

/-- `SD_LOAD t, s, lo, hi` (R87). -/
def sdLoad (tag ts lo hi : Word) : List Instr := [.wrSdTag tag, .wrSdTs ts, .wrSdValLo lo, .wrSdValHi hi]

/-- The payload byte at index `i`. Where the payload has none, R160 is silent on what the host packs: a free value
(DESIGN CHOICE, notes/assumptions/21.md). -/
def payloadByte (p : List Byte) (i : Nat) : Byte := p.getD i (Config.missingPayloadByte i)

/-- Four payload bytes from index `i`, as the host packs them into a register: little-endian (43_scalar_decoder.md
R160). -/
def payloadWord (p : List Byte) (i : Nat) : Word :=
  le32 (payloadByte p i) (payloadByte p (i + 1)) (payloadByte p (i + 2)) (payloadByte p (i + 3))

/-- The writes that load the record at the head of a payload; SD_VAL_HI only for an 8-byte value (R160). -/
def loadRecord (p : List Byte) (wide : Bool) : List Instr :=
  [.wrSdTag (payloadWord p 0), .wrSdTs (payloadWord p 4), .wrSdValLo (payloadWord p 8)] ++
    (if wide then [.wrSdValHi (payloadWord p 12)] else [])

/-- Whether the last value the host read has VALID = 1 (10_state.md R26, R29). -/
def lastReadValid (s : State) : Bool :=
  match s.hostReads.getLast? with
  | some v => v.getLsbD 8
  | none => false

/-- The host's read loop of R87: repeat the read until it returns VALID = 0, at most `n` times. -/
def readLoop (i : Instr) : Nat → State → Host.Outcome State Fault Refusal
  | 0, s => .next s
  | n + 1, s =>
    match exec i s with
    | .next t => if lastReadValid t then readLoop i n t else .next t
    | .fault why => .fault why
    | .refused why => .refused why

/-- `TX_DRAIN` (R87): at most `TXQ_DEPTH + 1` reads. -/
def txDrain (s : State) : Host.Outcome State Fault Refusal := readLoop .rdTxData (Config.params.txqDepth + 1) s

/-- `RX_READ` (R87): at most `LEN + 1` reads. -/
def rxRead (s : State) : Host.Outcome State Fault Refusal := readLoop .rdRxData (s.rxContent.length + 1) s

end Sys2Proof.Machine
end

