-- ==== Sys2Proof/Machine/Reference.lean ====
section
/-! DEFINITION. The buffer-level decode that the RX deframer computes (42_rx_deframer.md R150). These are reference
functions of the spec: the block itself never sees the end of a buffer. -/

namespace Sys2Proof.Machine

open Sys2Proof.Config (Params)

/-- The causes of a FramingError at buffer level; NO_CLOSE exists only here (R150). -/
inductive FramingCause where
  | overflow | danglingEsc | shortBody | noClose
  deriving DecidableEq, Repr

/-- The outcome of decoding one buffer (R150). -/
inductive DecodeOutcome where
  | ok (content : List Byte)
  | checksumMismatch
  | framingError (cause : FramingCause)
  deriving DecidableEq, Repr

/-- The outcome a state holds latched, if it holds one (R146, R150). -/
def latchedOutcome (s : State) : Option DecodeOutcome :=
  if s.rxDone = true then
    match s.rxResult, s.rxCause with
    | .ok, _ => some (.ok s.rxContent)
    | .checksumMismatch, _ => some .checksumMismatch
    | .framingError, .overflow => some (.framingError .overflow)
    | .framingError, .danglingEsc => some (.framingError .danglingEsc)
    | .framingError, .shortBody => some (.framingError .shortBody)
    | .framingError, .none => none
    | .none, _ => none
  else none

/-- The state after RX_BYTE of each byte in order (`RX_FEED`, 30_encoding.md R87). -/
def feed (P : Params) (ws : List Byte) (s : State) : State := ws.foldl (fun t w => rxByte P w t) s

/-- Apply RX_BYTE to the bytes in order until the first LATCH, or until they run out (R150). -/
def decodeFrom (P : Params) : List Byte → State → DecodeOutcome
  | [], s => if s.rxState = .esc then .framingError .danglingEsc else .framingError .noClose
  | w :: ws, s =>
    match latchedOutcome (rxByte P w s) with
    | some o => o
    | none => decodeFrom P ws (rxByte P w s)

/-- `DECODE_FRAME(buf)` (R150). -/
def decodeFrame (P : Params) (buf : List Byte) : DecodeOutcome := decodeFrom P buf (State.resetWith P)

/-- The outcomes latched while feeding the bytes, with an RX_ACK after each latch (R150). -/
def decodeStreamFrom (P : Params) : List Byte → State → List DecodeOutcome
  | [], _ => []
  | w :: ws, s =>
    match latchedOutcome (rxByte P w s) with
    | some o => o :: decodeStreamFrom P ws (rxAck (rxByte P w s))
    | none => decodeStreamFrom P ws (rxByte P w s)

/-- `DECODE_STREAM(s)` (R150). -/
def decodeStream (P : Params) (ws : List Byte) : List DecodeOutcome := decodeStreamFrom P ws (State.resetWith P)

end Sys2Proof.Machine
end

