-- ==== Sys2Proof/Safety.lean ====
section
/-! DEFINITION. What counts as a good state and a safe program: the invariants the spec states of the state elements
(10_state.md R31, R40 to R42; 42_rx_deframer.md R152), and the host's duty never to raise a bus error
(70_reset_and_hazards.md R248). -/

namespace Sys2Proof.Machine

open Sys2Proof.Config (Params)

/-- The TX FIFO holds no more than its capacity (10_state.md R40). -/
structure TxInv (P : Params) (s : State) : Prop where
  fits : s.txq.length ≤ P.txqDepth

/-- The invariants of the RX deframer's elements (10_state.md R31, R41; 42_rx_deframer.md R141, R146, R152). -/
structure RxInv (P : Params) (s : State) : Prop where
  /-- the scan bound -/
  bodyFits : s.rxBody.length ≤ P.rxMaxBody
  /-- in HUNT no body is being collected -/
  huntEmpty : s.rxState = .hunt → s.rxBody = []
  /-- while an outcome is latched there is a kind and no partial body -/
  doneLatched : s.rxDone = true → s.rxBody = [] ∧ s.rxResult ≠ .none
  /-- an overflow leaves the deframer in HUNT, every other outcome in OPEN (R141) -/
  doneState : s.rxDone = true → s.rxState = if s.rxCause = .overflow then .hunt else .opened
  /-- while nothing is latched the result elements hold their reset values -/
  idleClear : s.rxDone = false → s.rxResult = .none ∧ s.rxCause = .none ∧ s.rxContent = [] ∧
    s.rxFcsRx = 0 ∧ s.rxFcsCalc = 0 ∧ s.rxRd = 0
  /-- a sub-cause belongs to a FRAMING_ERROR and to nothing else -/
  causeKind : s.rxCause ≠ .none ↔ s.rxResult = .framingError
  /-- an OK outcome's two checksums are equal, and are the checksum of its content -/
  okChecked : s.rxResult = .ok → s.rxFcsRx = s.rxFcsCalc ∧ s.rxFcsCalc = fcs16 P s.rxContent ∧
    s.rxContent.length + 2 ≤ P.rxMaxBody
  /-- a mismatch's two checksums differ -/
  mismatchDiffers : s.rxResult = .checksumMismatch → s.rxFcsRx ≠ s.rxFcsCalc
  /-- RX_FCS is 0 unless the outcome is OK or CHECKSUM_MISMATCH -/
  framingNoFcs : s.rxResult = .framingError → s.rxFcsRx = 0 ∧ s.rxFcsCalc = 0
  /-- only an OK outcome has content -/
  contentOk : s.rxResult ≠ .ok → s.rxContent = []
  /-- the read pointer stays within the content -/
  readInside : s.rxRd ≤ s.rxContent.length

/-- The scalar decoder's outputs agree with its status (10_state.md R42, 43_scalar_decoder.md R163, R165). -/
structure SdInv (P : Params) (s : State) : Prop where
  noneClear : s.sdStatus = .none → s.sdQidx = 0 ∧ s.sdWidth = 0 ∧ s.sdExp = 0 ∧ s.sdReclen = 0 ∧ s.sdCode = 0 ∧
    s.sdMant = 0 ∧ s.sdTstamp = 0
  recognizedRow : s.sdStatus = .recognized → ∃ q : Quantity, recognise P s.sdCode = some q ∧ s.sdQidx = q.index ∧
    s.sdWidth = q.width ∧ s.sdExp = BitVec.ofInt 8 q.exp ∧ s.sdReclen = 8 + q.width
  skipWidth : s.sdStatus = .skip → recognise P s.sdCode = none ∧ s.sdQidx = 0 ∧ (s.sdWidth = 8 ∨ s.sdWidth = 4) ∧
    s.sdExp = 0 ∧ s.sdReclen = 8 + s.sdWidth ∧ s.sdMant = 0
  errorClear : s.sdStatus = .shapeError → recognise P s.sdCode = none ∧ s.sdQidx = 0 ∧ s.sdWidth = 0 ∧
    s.sdExp = 0 ∧ s.sdReclen = 0 ∧ s.sdMant = 0

/-- The invariant of the block: it says nothing of the host's own lists. -/
structure State.Inv (P : Params) (s : State) : Prop where
  tx : TxInv P s
  rx : RxInv P s
  sd : SdInv P s

/-- A move is legal when it raises no bus error (20_memory.md R61); an illegal CMD word is a legal access that fails
(30_encoding.md R84). -/
def HostMove.legal : HostMove → Bool
  | .reset => true
  | .access a =>
    match decode a with
    | .instr _ => true
    | .illegal _ => true
    | .busError _ => false

/-- A safe program: no move of the host raises a bus error (70_reset_and_hazards.md R248, last row but one). -/
def safeProgram (ms : List HostMove) : Bool := ms.all HostMove.legal

/-- Two states agree in every element the TX framer owns, and in the range registers it reads (10_state.md R22,
R40; 20_memory.md R74). -/
def State.sameTx (s t : State) : Prop :=
  s.txActive = t.txActive ∧ s.txq = t.txq ∧ s.txAcc = t.txAcc ∧ s.rangeStart = t.rangeStart ∧ s.rangeEnd = t.rangeEnd

/-- Two states agree in every element the RX deframer owns (10_state.md R22, R41; 20_memory.md R74). -/
def State.sameRx (s t : State) : Prop :=
  s.rxState = t.rxState ∧ s.rxBody = t.rxBody ∧ s.rxDone = t.rxDone ∧ s.rxResult = t.rxResult ∧
    s.rxCause = t.rxCause ∧ s.rxContent = t.rxContent ∧ s.rxFcsRx = t.rxFcsRx ∧ s.rxFcsCalc = t.rxFcsCalc ∧
    s.rxRd = t.rxRd

/-- Two states agree in every output of the scalar decoder (10_state.md R42). -/
def State.sameSdOutputs (s t : State) : Prop :=
  s.sdStatus = t.sdStatus ∧ s.sdQidx = t.sdQidx ∧ s.sdWidth = t.sdWidth ∧ s.sdExp = t.sdExp ∧
    s.sdReclen = t.sdReclen ∧ s.sdCode = t.sdCode ∧ s.sdMant = t.sdMant ∧ s.sdTstamp = t.sdTstamp

/-- Two states agree in the six RW registers (10_state.md R20). -/
def State.sameInputs (s t : State) : Prop :=
  s.sdTag = t.sdTag ∧ s.sdTs = t.sdTs ∧ s.sdValLo = t.sdValLo ∧ s.sdValHi = t.sdValHi ∧
    s.rangeStart = t.rangeStart ∧ s.rangeEnd = t.rangeEnd

/-- The instructions of the TX framer (30_encoding.md R83, 41_tx_framer.md R125). -/
def isTx : Instr → Bool
  | .txStart | .txByte _ | .txRange | .txEnd | .rdTxData => true
  | .nop | .rxByte _ | .rxAck | .sdDecode | .sreset | .rdStatus | .rdTxLevel | .rdTxFcs | .rdRxData
    | .rdRxStatus | .rdRxFcs | .rdSdTag | .rdSdTs | .rdSdValLo | .rdSdValHi | .rdSdResult | .rdSdCode
    | .rdSdMantLo | .rdSdMantHi | .rdSdTstamp | .rdRangeStart | .rdRangeEnd | .wrSdTag _ | .wrSdTs _
    | .wrSdValLo _ | .wrSdValHi _ | .wrRangeStart _ | .wrRangeEnd _ => false

/-- The instructions of the RX deframer (30_encoding.md R83, 42_rx_deframer.md R148). -/
def isRx : Instr → Bool
  | .rxByte _ | .rxAck | .rdRxData => true
  | .nop | .txStart | .txByte _ | .txRange | .txEnd | .sdDecode | .sreset | .rdStatus | .rdTxData
    | .rdTxLevel | .rdTxFcs | .rdRxStatus | .rdRxFcs | .rdSdTag | .rdSdTs | .rdSdValLo | .rdSdValHi
    | .rdSdResult | .rdSdCode | .rdSdMantLo | .rdSdMantHi | .rdSdTstamp | .rdRangeStart | .rdRangeEnd
    | .wrSdTag _ | .wrSdTs _ | .wrSdValLo _ | .wrSdValHi _ | .wrRangeStart _ | .wrRangeEnd _ => false

/-- One entry of a TX frame's content: a byte by TX_BYTE, or the register range by TX_RANGE (41_tx_framer.md R126). -/
inductive TxItem where
  | byte (b : Byte)
  | range
  deriving DecidableEq, Repr

/-- The command that adds the entry. -/
def TxItem.instr : TxItem → Instr
  | .byte b => .txByte b
  | .range => .txRange

/-- The content bytes the entry stands for, with the range registers as they stand in `s`. -/
def TxItem.bytes (s : State) : TxItem → List Byte
  | .byte b => [b]
  | .range => rangeBytes s

/-- The data bytes of the TX_DATA reads among returned values: those with VALID = 1 (10_state.md R26). -/
def wireBytes (vs : List Word) : List Byte := (vs.filter fun v => v.getLsbD 8).map fun v => v.extractLsb' 0 8

/-- The instructions run one after the other, each giving a next state, and no command among them fails: after each
write to CMD `cmd_err = 0` (10_state.md R43). What `cmd_err` was before the first of them does not matter. -/
def RunsClean : List Instr → State → State → Prop
  | [], s, u => u = s
  | i :: is, s, u => ∃ t, exec i s = .next t ∧ (i.isCommand = true → t.cmdErr = .ok) ∧ RunsClean is t u

end Sys2Proof.Machine
end

