-- ==== Sys2Proof/Certificates/Slice0/Obligations.lean ====
section
/-! DEFINITION. The statements about the machine: each says which rule of spec/ it formalises, or which sections it
rests on. OBLIGATIONS.json lists them. -/

open Sys2Proof Sys2Proof.Machine

/-! ### A step, decoding and encoding -/

/-- A host access that decodes to an instruction runs it, in the state in which that access is no longer pending
(00_scope.md R11; the host's list of moves is the model's, notes/assumptions/2.md). -/
def Obligations.StepRunsDecodedInstruction : Prop :=
  ∀ (s : State) (a : Access) (rest : List HostMove) (i : Instr),
    s.hostMoves = .access a :: rest → decode a = .instr i → step s = exec i { s with hostMoves := rest }

/-- The platform's reset event gives every element its reset value (70_reset_and_hazards.md R230); with no move
left the block does nothing more (R246). -/
def Obligations.StepOnResetEventAndAtTheEnd : Prop :=
  ∀ s : State,
    (∀ rest, s.hostMoves = .reset :: rest →
      step s = .next { State.reset with hostMoves := rest, hostReads := s.hostReads }) ∧
    (s.hostMoves = [] → step s = .next s)

/-- 30_encoding.md R84: a CMD word is illegal, and fails with ILLEGAL without any other effect, when RSV is not 0,
OPC is unassigned, or ARG is not 0 and OPC is not TX_BYTE or RX_BYTE; every other word is one command. -/
def Obligations.IllegalWordsFailAndLegalWordsAreCommands : Prop :=
  ∀ (s : State) (v : Word) (rest : List HostMove), s.hostMoves = .access (.write 0x00 4 v) :: rest →
    let rsv := v.toNat / 65536
    let arg := v.toNat / 256 % 256
    let opc := v.toNat % 256
    let illegal := rsv ≠ 0 ∨ opc ∉ [0x00, 0x01, 0x02, 0x03, 0x04, 0x10, 0x11, 0x20, 0xFF] ∨
      (arg ≠ 0 ∧ opc ∉ [0x02, 0x10])
    (illegal → step s = .next { s with hostMoves := rest, cmdErr := .illegal }) ∧
    (¬illegal → ∃ i, i.isCommand = true ∧ decode (.write 0x00 4 v) = .instr i)

/-- 20_memory.md R61: the checks of a host access in their order, for reads and for writes; an access that passes
them answers a next state. -/
def Obligations.BusErrorsInOrder : Prop :=
  ∀ (s : State) (off n : Nat) (rest : List HostMove),
    let mapped := [0x00, 0x04, 0x08, 0x0C, 0x10, 0x20, 0x24, 0x28, 0x40, 0x44, 0x48, 0x4C, 0x50, 0x54, 0x58, 0x5C,
      0x60, 0x70, 0x74]
    let readOnly := [0x04, 0x08, 0x0C, 0x10, 0x20, 0x24, 0x28, 0x50, 0x54, 0x58, 0x5C, 0x60]
    (s.hostMoves = .access (.read off n) :: rest →
      if n ≠ 4 then step s = .fault (.busError .size)
      else if off % 4 ≠ 0 then step s = .fault (.busError .misaligned)
      else if off ∉ mapped then step s = .fault (.busError .unmapped)
      else if off = 0x00 then step s = .fault (.busError .readOfWriteOnly)
      else ∃ t, step s = .next t) ∧
    (∀ v : Word, s.hostMoves = .access (.write off n v) :: rest →
      if n ≠ 4 then step s = .fault (.busError .size)
      else if off % 4 ≠ 0 then step s = .fault (.busError .misaligned)
      else if off ∉ mapped then step s = .fault (.busError .unmapped)
      else if off ∈ readOnly then step s = .fault (.busError .writeOfReadOnly)
      else ∃ t, step s = .next t)

/-- The machine stops only on a bus error of the host's next access, and never refuses (60_exceptions.md R201,
R206: no error is fatal to the block). -/
def Obligations.OnlyBusErrorsStopTheMachine : Prop :=
  ∀ s : State,
    (∀ f, step s = .fault f → ∃ a rest why,
      s.hostMoves = .access a :: rest ∧ decode a = .busError why ∧ f = .busError why) ∧
    (∀ r, step s ≠ .refused r)

/-- Decoding an instruction's encoding gives the instruction back, every operand at every value. -/
def Obligations.DecodeOfEncodeIsTheInstruction : Prop := ∀ i : Instr, decode (encode i) = .instr i

/-- Every access that decodes to an instruction is that instruction's encoding: no access has two meanings and no
instruction two accesses. -/
def Obligations.EncodeOfDecodeIsTheAccess : Prop := ∀ (a : Access) (i : Instr), decode a = .instr i → encode i = a

/-- The decoder accepts exactly the accesses that are well formed. -/
def Obligations.WellFormedAccessesAreThoseThatDecode : Prop :=
  ∀ a : Access, a.wellFormed = true ↔ ∃ i, decode a = .instr i

/-- 30_encoding.md R83: the words of the opcode map, and accesses of the register map, decode to what they stand
for. -/
def Obligations.SpecWordsDecodeToTheirRows : Prop :=
  decode (.write 0x00 4 0x00000000) = .instr .nop ∧ decode (.write 0x00 4 0x00000001) = .instr .txStart ∧
  decode (.write 0x00 4 0x00007E02) = .instr (.txByte 0x7E) ∧ decode (.write 0x00 4 0x00000003) = .instr .txRange ∧
  decode (.write 0x00 4 0x00000004) = .instr .txEnd ∧ decode (.write 0x00 4 0x00003610) = .instr (.rxByte 0x36) ∧
  decode (.write 0x00 4 0x00000011) = .instr .rxAck ∧ decode (.write 0x00 4 0x00000020) = .instr .sdDecode ∧
  decode (.write 0x00 4 0x000000FF) = .instr .sreset ∧ decode (.read 0x50 4) = .instr .rdSdResult ∧
  decode (.write 0x70 4 0x7E000011) = .instr (.wrRangeStart 0x7E000011)

/-! ### The TX framer -/

/-- 41_tx_framer.md R121: TX_START, its effect and its two errors. -/
def Obligations.TxStartOpensAFrame : Prop :=
  decode (.write 0x00 4 0x00000001) = .instr .txStart ∧ ∀ s : State,
    (s.txActive = false → s.txq.length + 1 ≤ Config.params.txqDepth →
      exec .txStart s = .next { s with
        txq := s.txq ++ [0x7E], txAcc := Config.params.fcsInit, txActive := true, cmdErr := .ok }) ∧
    (s.txActive = true → exec .txStart s = .next { s with cmdErr := .txState }) ∧
    (s.txActive = false → Config.params.txqDepth < s.txq.length + 1 →
      exec .txStart s = .next { s with cmdErr := .txFull })

/-- 41_tx_framer.md R122: TX_BYTE of a byte in the escaped set, of any other byte, and its two errors. -/
def Obligations.TxByteEscapesAndAccumulates : Prop :=
  ∀ (b : Byte), decode (.write 0x00 4 (0x00000002 ||| b.setWidth 32 <<< 8)) = .instr (.txByte b) ∧ ∀ (s : State),
    let escaped := b ∈ [(0x7E : Byte), 0x7D, 0x11, 0x12, 0x13]
    (s.txActive = true → escaped → s.txq.length + 2 ≤ Config.params.txqDepth →
      exec (.txByte b) s = .next { s with
        txq := s.txq ++ [0x7D, b ^^^ 0x20], txAcc := Config.params.fcsUpd s.txAcc b, cmdErr := .ok }) ∧
    (s.txActive = true → ¬escaped → s.txq.length + 1 ≤ Config.params.txqDepth →
      exec (.txByte b) s = .next { s with
        txq := s.txq ++ [b], txAcc := Config.params.fcsUpd s.txAcc b, cmdErr := .ok }) ∧
    (s.txActive = true → escaped → Config.params.txqDepth < s.txq.length + 2 →
      exec (.txByte b) s = .next { s with cmdErr := .txFull }) ∧
    (s.txActive = true → ¬escaped → Config.params.txqDepth < s.txq.length + 1 →
      exec (.txByte b) s = .next { s with cmdErr := .txFull }) ∧
    (s.txActive = false → exec (.txByte b) s = .next { s with cmdErr := .txState })

/-- 41_tx_framer.md R123: TX_RANGE pushes the escaped eight bytes of the two bounds, little-endian, start first,
whatever the bounds are; and its two errors. -/
def Obligations.TxRangeSerialisesTheBounds : Prop :=
  decode (.write 0x00 4 0x00000003) = .instr .txRange ∧ ∀ s : State,
    let bs : List Byte := [s.rangeStart.extractLsb' 0 8, s.rangeStart.extractLsb' 8 8, s.rangeStart.extractLsb' 16 8,
      s.rangeStart.extractLsb' 24 8, s.rangeEnd.extractLsb' 0 8, s.rangeEnd.extractLsb' 8 8,
      s.rangeEnd.extractLsb' 16 8, s.rangeEnd.extractLsb' 24 8]
    let out := bs.flatMap fun b => if b ∈ [(0x7E : Byte), 0x7D, 0x11, 0x12, 0x13] then [0x7D, b ^^^ 0x20] else [b]
    (s.txActive = true → s.txq.length + out.length ≤ Config.params.txqDepth →
      exec .txRange s = .next { s with
        txq := s.txq ++ out, txAcc := bs.foldl Config.params.fcsUpd s.txAcc, cmdErr := .ok }) ∧
    (s.txActive = true → Config.params.txqDepth < s.txq.length + out.length →
      exec .txRange s = .next { s with cmdErr := .txFull }) ∧
    (s.txActive = false → exec .txRange s = .next { s with cmdErr := .txState })

/-- TX_RANGE is the same as eight TX_BYTE commands with the bytes of the bounds when there is room for all of
them (41_tx_framer.md section 2, the corner cases of TX_RANGE). -/
def Obligations.TxRangeEqualsEightTxBytes : Prop :=
  ∀ (s t : State), exec .txRange s = .next t → t.cmdErr = .ok →
    runInstrs ((rangeBytes s).map .txByte) s = .next t

/-- 41_tx_framer.md R124: TX_END pushes the escaped little-endian checksum and the closing delimiter, closes the
frame and leaves the accumulator; and its two errors. -/
def Obligations.TxEndAppendsTheChecksum : Prop :=
  decode (.write 0x00 4 0x00000004) = .instr .txEnd ∧ ∀ s : State,
    let f := Config.params.fcsFin s.txAcc
    let out := ([f.extractLsb' 0 8, f.extractLsb' 8 8] : List Byte).flatMap
      (fun b => if b ∈ [(0x7E : Byte), 0x7D, 0x11, 0x12, 0x13] then [0x7D, b ^^^ 0x20] else [b]) ++ [0x7E]
    (s.txActive = true → s.txq.length + out.length ≤ Config.params.txqDepth →
      exec .txEnd s = .next { s with txq := s.txq ++ out, txActive := false, cmdErr := .ok }) ∧
    (s.txActive = true → Config.params.txqDepth < s.txq.length + out.length →
      exec .txEnd s = .next { s with cmdErr := .txFull }) ∧
    (s.txActive = false → exec .txEnd s = .next { s with cmdErr := .txState })

/-- 41_tx_framer.md R125: the read of TX_DATA takes the head of the FIFO, or returns 0 and changes nothing. -/
def Obligations.ReadTxDataPopsTheHead : Prop :=
  decode (.read 0x08 4) = .instr .rdTxData ∧ ∀ s : State,
    (∀ b rest, s.txq = b :: rest →
      exec .rdTxData s = .next { s with txq := rest, hostReads := s.hostReads ++ [0x00000100 ||| b.setWidth 32] }) ∧
    (s.txq = [] → exec .rdTxData s = .next { s with hostReads := s.hostReads ++ [0x00000000] })

/-- 41_tx_framer.md R120, R127: on an empty FIFO every TX command succeeds when its state check passes, and no TX
command pushes more than 16 bytes. -/
def Obligations.TxCommandsSucceedOnAnEmptyFifo : Prop :=
  ∀ s : State, s.txq = [] →
    (s.txActive = false → ∃ t, exec .txStart s = .next t ∧ t.cmdErr = .ok ∧ t.txActive = true ∧ t.txq.length ≤ 1) ∧
    (s.txActive = true →
      (∀ b, ∃ t, exec (.txByte b) s = .next t ∧ t.cmdErr = .ok ∧ t.txq.length ≤ 2) ∧
      (∃ t, exec .txRange s = .next t ∧ t.cmdErr = .ok ∧ t.txq.length ≤ 16) ∧
      (∃ t, exec .txEnd s = .next t ∧ t.cmdErr = .ok ∧ t.txActive = false ∧ t.txq.length ≤ 5))

/-- With room for the whole frame, TX_FRAME pushes exactly ENCODE_FRAME of its content (41_tx_framer.md section 4,
the property of TX_FRAME; 40_frame_primitives.md R108). -/
def Obligations.TxFramePushesTheEncodedFrame : Prop :=
  ∀ (c : List Byte) (s : State), s.txActive = false → s.txq.length + (2 * c.length + 6) ≤ Config.params.txqDepth →
    ∃ t, runInstrs (txFrame c) s = .next t ∧ t.txq = s.txq ++ encodeFrame Config.params c ∧
      t.txActive = false ∧ t.cmdErr = .ok ∧ t.sameRx s ∧ t.sameSdOutputs s ∧ t.sameInputs s

/-- The same with reads of TX_DATA anywhere between the commands and with TX_RANGE in place of bytes: from any
state without an open frame, whatever `cmd_err` is there, as long as none of these commands fails, the bytes read
and the bytes left in the FIFO are what the FIFO held and then the encoded frame (41_tx_framer.md section 4; 20_memory.md R74, first in, first out). -/
def Obligations.TxFrameIsSentInOrderWhileDrained : Prop :=
  ∀ (items : List TxItem) (is : List Instr) (s t : State), s.txActive = false →
    is.filter (fun i => i ≠ .rdTxData) = .txStart :: (items.map TxItem.instr ++ [.txEnd]) → RunsClean is s t →
    ∃ vs, t.hostReads = s.hostReads ++ vs ∧
      wireBytes vs ++ t.txq = s.txq ++ encodeFrame Config.params (items.flatMap (TxItem.bytes s)) ∧
      t.txActive = false

/-- TX_DRAIN returns the bytes of the FIFO in order, each with VALID = 1, then one value with VALID = 0, and leaves
it empty (30_encoding.md R87, 41_tx_framer.md R125). -/
def Obligations.TxDrainReturnsTheFifoInOrder : Prop :=
  ∀ s : State, TxInv Config.params s →
    txDrain s = .next { s with
      txq := [], hostReads := s.hostReads ++ s.txq.map (fun b => 0x00000100 ||| b.setWidth 32) ++ [0x00000000] }

/-! ### Frame primitives -/

/-- 40_frame_primitives.md R102: escape of one byte, with the escaped set of R101. -/
def Obligations.EscapeOfOneByte : Prop :=
  ∀ b : Byte, esc b = if b = 0x7E ∨ b = 0x7D ∨ b = 0x11 ∨ b = 0x12 ∨ b = 0x13 then [0x7D, b ^^^ 0x20] else [b]

/-- The properties of escaping in 40_frame_primitives.md section 4, list items 2 to 4: no delimiter in escaped
bytes, every escape byte begins a pair with a canonical follower, and unescaping gives the bytes back. -/
def Obligations.EscapedBytesUnescapeAndHoldNoDelimiter : Prop :=
  ∀ l : List Byte, (0x7E : Byte) ∉ escs l ∧ unescs (escs l) = some l ∧
    ∀ pre post : List Byte, escs l = pre ++ 0x7D :: post →
      (∃ x rest, post = x :: rest ∧ x ∈ [(0x5E : Byte), 0x5D, 0x31, 0x32, 0x33])

/-- The last property of 40_frame_primitives.md section 4: a frame holds the delimiter exactly at its two ends, and
its length is between `|c| + 4` and `2|c| + 6`. -/
def Obligations.EncodedFrameDelimitersAndLength : Prop :=
  ∀ (P : Config.Params) (c : List Byte),
    (∃ mid, encodeFrame P c = 0x7E :: (mid ++ [0x7E]) ∧ (0x7E : Byte) ∉ mid) ∧
    c.length + 4 ≤ (encodeFrame P c).length ∧ (encodeFrame P c).length ≤ 2 * c.length + 6

/-! ### The RX deframer -/

/-- 42_rx_deframer.md R141: the table of transitions on one wire byte while nothing is latched. -/
def Obligations.RxTransitionTable : Prop :=
  ∀ (w : Byte), decode (.write 0x00 4 (0x00000010 ||| w.setWidth 32 <<< 8)) = .instr (.rxByte w) ∧
    ∀ (s : State), s.rxDone = false →
    (s.rxState = .hunt → exec (.rxByte w) s =
      .next (if w = 0x7E then { s with rxState := .opened, rxBody := [], cmdErr := .ok } else { s with cmdErr := .ok })) ∧
    (s.rxState = .opened → exec (.rxByte w) s =
      .next (if w = 0x7E then { rxClose Config.params s with cmdErr := .ok }
        else if w = 0x7D then { s with rxState := .esc, cmdErr := .ok }
        else { rxAppend Config.params w s with cmdErr := .ok })) ∧
    (s.rxState = .esc → exec (.rxByte w) s =
      .next (if w = 0x7E then { s with
          rxState := .opened, rxDone := true, rxResult := .framingError, rxCause := .danglingEsc, rxContent := [],
          rxFcsRx := 0, rxFcsCalc := 0, rxRd := 0, rxBody := [], cmdErr := .ok }
        else if w = 0x7D then { rxAppend Config.params 0x5D { s with rxState := .opened } with cmdErr := .ok }
        else { rxAppend Config.params (w ^^^ 0x20) { s with rxState := .opened } with cmdErr := .ok }))

/-- 42_rx_deframer.md R143: a body byte is kept up to RX_MAX_BODY of them; the next one latches OVERFLOW and puts
the deframer in HUNT. In OPEN the body byte is the wire byte, in ESC the wire byte XOR 0x20. -/
def Obligations.RxBodyByteIsKeptOrOverflows : Prop :=
  ∀ (w v : Byte) (s : State), s.rxDone = false →
    ((s.rxState = .opened ∧ w ≠ 0x7E ∧ w ≠ 0x7D ∧ v = w) ∨ (s.rxState = .esc ∧ w ≠ 0x7E ∧ v = w ^^^ 0x20)) →
    (s.rxBody.length ≠ Config.params.rxMaxBody →
      exec (.rxByte w) s = .next { s with rxState := .opened, rxBody := s.rxBody ++ [v], cmdErr := .ok }) ∧
    (s.rxBody.length = Config.params.rxMaxBody →
      exec (.rxByte w) s = .next { s with
        rxState := .hunt, rxDone := true, rxResult := .framingError, rxCause := .overflow, rxContent := [],
        rxFcsRx := 0, rxFcsCalc := 0, rxRd := 0, rxBody := [], cmdErr := .ok })

/-- 42_rx_deframer.md R144, R145, R146: a delimiter in OPEN closes the frame by the length of its body; a body of two
or more bytes is its content and the received checksum, low byte first, and is OK exactly when that checksum is
the content's. -/
def Obligations.RxDelimiterClosesTheFrame : Prop :=
  ∀ s : State, s.rxDone = false → s.rxState = .opened →
    (s.rxBody = [] → exec (.rxByte 0x7E) s = .next { s with cmdErr := .ok }) ∧
    (∀ b, s.rxBody = [b] → exec (.rxByte 0x7E) s = .next { s with
      rxDone := true, rxResult := .framingError, rxCause := .shortBody, rxContent := [],
      rxFcsRx := 0, rxFcsCalc := 0, rxRd := 0, rxBody := [], cmdErr := .ok }) ∧
    (∀ (c : List Byte) (lo hi : Byte), s.rxBody = c ++ [lo, hi] →
      let frx : Half := hi ++ lo
      let fcalc := Config.params.fcsFin (c.foldl Config.params.fcsUpd Config.params.fcsInit)
      exec (.rxByte 0x7E) s = .next { s with
        rxDone := true, rxResult := if frx = fcalc then .ok else .checksumMismatch, rxCause := .none,
        rxContent := if frx = fcalc then c else [],
        rxFcsRx := frx, rxFcsCalc := fcalc, rxRd := 0, rxBody := [], cmdErr := .ok })

/-- While an outcome is latched RX_BYTE fails with RX_BUSY and consumes nothing (42_rx_deframer.md section 2,
exceptions of RX_BYTE; 60_exceptions.md section 1, code 4). -/
def Obligations.RxByteIsBusyWhileLatched : Prop :=
  ∀ (w : Byte) (s : State), s.rxDone = true → exec (.rxByte w) s = .next { s with cmdErr := .rxBusy }

/-- 42_rx_deframer.md R147: RX_ACK releases the latched outcome, or fails with RX_STATE. -/
def Obligations.RxAckReleasesTheOutcome : Prop :=
  decode (.write 0x00 4 0x00000011) = .instr .rxAck ∧ ∀ s : State,
    (s.rxDone = true → exec .rxAck s = .next { s with
      rxDone := false, rxResult := .none, rxCause := .none, rxContent := [], rxFcsRx := 0, rxFcsCalc := 0,
      rxRd := 0, cmdErr := .ok }) ∧
    (s.rxDone = false → exec .rxAck s = .next { s with cmdErr := .rxState })

/-- 42_rx_deframer.md R148: the read of RX_DATA returns the next content byte of an OK frame, or 0 and changes
nothing. -/
def Obligations.ReadRxDataReturnsContentOnce : Prop :=
  decode (.read 0x20 4) = .instr .rdRxData ∧ ∀ s : State,
    (∀ b, s.rxDone = true → s.rxResult = .ok → s.rxContent[s.rxRd]? = some b →
      exec .rdRxData s = .next { s with
        rxRd := s.rxRd + 1, hostReads := s.hostReads ++ [0x00000100 ||| b.setWidth 32] }) ∧
    (s.rxDone = false ∨ s.rxResult ≠ .ok ∨ s.rxContent.length ≤ s.rxRd →
      exec .rdRxData s = .next { s with hostReads := s.hostReads ++ [0x00000000] })

/-- RX_READ returns the unread content of an OK frame in order, then one value with VALID = 0 (30_encoding.md R87,
42_rx_deframer.md R148). -/
def Obligations.RxReadReturnsTheContentInOrder : Prop :=
  ∀ s : State, s.rxDone = true → s.rxResult = .ok → s.rxRd = 0 →
    rxRead s = .next { s with
      rxRd := s.rxContent.length,
      hostReads := s.hostReads ++ s.rxContent.map (fun b => 0x00000100 ||| b.setWidth 32) ++ [0x00000000] }

/-- Round trip (42_rx_deframer.md section 4): decoding an encoded frame gives its content, the latch happens on its
last byte, and re-encoding the content of a well-formed frame gives the frame back. -/
def Obligations.DecodeFrameInvertsEncodeFrame : Prop :=
  ∀ P : Config.Params,
    (∀ c : List Byte, c.length + 2 ≤ P.rxMaxBody →
      decodeFrame P (encodeFrame P c) = .ok c ∧
      (∀ pre, pre <+: encodeFrame P c → (feed P pre (State.resetWith P)).rxDone = decide (pre = encodeFrame P c))) ∧
    (∀ f : List Byte, IsFrame P f → ∃ c, decodeFrame P f = .ok c ∧ encodeFrame P c = f)

/-- A stream of frames decodes to their contents, one outcome each, after any noise without a delimiter
(42_rx_deframer.md sections 1 and 4: every delimiter is a boundary, an empty pair of delimiters is fill). -/
def Obligations.DecodeStreamOfFramesGivesEveryContent : Prop :=
  ∀ (P : Config.Params) (noise : List Byte) (cs : List (List Byte)), (0x7E : Byte) ∉ noise →
    (∀ c ∈ cs, c.length + 2 ≤ P.rxMaxBody) →
    decodeStream P (noise ++ cs.flatMap (encodeFrame P)) = cs.map .ok

/-- Resynchronisation (42_rx_deframer.md section 4): after an acknowledged outcome other than OVERFLOW the next
frame needs no opening delimiter; after an OVERFLOW bytes are discarded up to the next one, and the frame it opens
is received. -/
def Obligations.DeframerResynchronises : Prop :=
  ∀ (c : List Byte) (s : State), RxInv Config.params s → s.rxDone = true →
    c.length + 2 ≤ Config.params.rxMaxBody →
    (s.rxCause ≠ .overflow → ∃ t,
      runInstrs (.rxAck :: rxFeed ((encodeFrame Config.params c).drop 1)) s = .next t ∧
      t.rxDone = true ∧ t.rxResult = .ok ∧ t.rxContent = c) ∧
    (s.rxCause = .overflow → ∀ junk : List Byte, (0x7E : Byte) ∉ junk → ∃ t,
      runInstrs (.rxAck :: rxFeed (junk ++ encodeFrame Config.params c)) s = .next t ∧
      t.rxDone = true ∧ t.rxResult = .ok ∧ t.rxContent = c)

/-- Bounded scan (42_rx_deframer.md section 4): from a frame just opened, no more than `2 x (RX_MAX_BODY + 1)` bytes
that are not delimiters arrive before an outcome is latched, and it is OVERFLOW. -/
def Obligations.ScanIsBounded : Prop :=
  ∀ (ws : List Byte) (s : State), s.rxState = .opened → s.rxBody = [] → s.rxDone = false → (0x7E : Byte) ∉ ws →
    ws.length = 2 * (Config.params.rxMaxBody + 1) →
    ∃ t, runInstrs (rxFeed ws) s = .next t ∧ t.rxDone = true ∧ t.rxCause = .overflow ∧ t.rxState = .hunt

/-- Loopback: the bytes a TX frame pushes, fed to the deframer of the same block, latch OK with the content sent
(41_tx_framer.md section 4 and 42_rx_deframer.md section 4; program P5 of 95_test_vectors.md is one case). -/
def Obligations.LoopbackDeliversTheContent : Prop :=
  ∀ (c : List Byte) (s : State), s.txActive = false → s.txq = [] → s.rxState = .hunt → s.rxDone = false →
    2 * c.length + 6 ≤ Config.params.txqDepth → c.length + 2 ≤ Config.params.rxMaxBody →
    ∃ t u, runInstrs (txFrame c) s = .next t ∧ runInstrs (rxFeed t.txq) t = .next u ∧
      u.rxDone = true ∧ u.rxResult = .ok ∧ u.rxContent = c ∧ u.rxFcsRx = fcs16 Config.params c ∧ u.cmdErr = .ok

/-! ### The scalar decoder -/

/-- 43_scalar_decoder.md R163 with the tables R161 and R162: a recognised code (the row of least index that holds
it) decodes with the row's width and scale whatever the shape; an unrecognised one is skipped by the width of its
shape, or is a SHAPE_ERROR. -/
def Obligations.SdDecodeFollowsTheTables : Prop :=
  decode (.write 0x00 4 0x00000020) = .instr .sdDecode ∧ ∀ s : State,
    let P := Config.params
    let code : Code := s.sdTag.extractLsb' 0 24
    let shape : Byte := s.sdTag.extractLsb' 24 8
    let table : List (BitVec 4 × Code × Byte × Byte) :=
      [(1, P.codeProdToday, 8, 0xFD), (2, P.codeProdLifetime, 8, 0xFD), (3, P.codeSpotAcPower, 4, 0x00),
       (4, P.codeSpotAcFrequency, 4, 0xFE), (5, P.codeOperationTime, 8, 0xFD), (6, P.codeOperationFeedinTime, 8, 0xFD)]
    (∀ (pre post : List (BitVec 4 × Code × Byte × Byte)) (i : BitVec 4) (w e : Byte),
      table = pre ++ (i, code, w, e) :: post → (∀ r ∈ pre, r.2.1 ≠ code) →
      exec .sdDecode s = .next { s with
        sdCode := code, sdTstamp := s.sdTs, sdStatus := .recognized, sdQidx := i, sdWidth := w, sdExp := e,
        sdReclen := 8 + w,
        sdMant := if w = 8 then s.sdValHi ++ s.sdValLo
          else if P.rawSigned = true then s.sdValLo.signExtend 64 else s.sdValLo.setWidth 64,
        cmdErr := .ok }) ∧
    ((∀ r ∈ table, r.2.1 ≠ code) →
      exec .sdDecode s = .next { s with
        sdCode := code, sdTstamp := s.sdTs,
        sdStatus := if shape = P.shapeLong ∨ shape = P.shapeInt then .skip else .shapeError,
        sdQidx := 0, sdExp := 0, sdMant := 0,
        sdWidth := if shape = P.shapeLong then 8 else if shape = P.shapeInt then 4 else 0,
        sdReclen := if shape = P.shapeLong then 16 else if shape = P.shapeInt then 12 else 0,
        cmdErr := .ok })

/-- The exact value of a recognised record (43_scalar_decoder.md R164): the raw integer, read as RAW_SIGNED says,
times the power of ten of its row. -/
def Obligations.RecognisedRecordHasTheExactValue : Prop :=
  ∀ (s t : State) (q : Quantity), recognise Config.params (tagCode s.sdTag) = some q → exec .sdDecode s = .next t →
    let raw : Int := if q.width = 8 then
        (if Config.params.rawSigned = true then (s.sdValHi ++ s.sdValLo).toInt else ((s.sdValHi ++ s.sdValLo).toNat : Int))
      else (if Config.params.rawSigned = true then s.sdValLo.toInt else (s.sdValLo.toNat : Int))
    fixedPoint Config.params t = some (raw * (10 : ℚ) ^ q.exp)

/-! ### Control and registers -/

/-- 44_control.md R180: NOP clears `cmd_err` and does nothing else. -/
def Obligations.NopOnlyClearsCmdErr : Prop :=
  decode (.write 0x00 4 0x00000000) = .instr .nop ∧ ∀ s : State, exec .nop s = .next { s with cmdErr := .ok }

/-- 44_control.md R181 and 70_reset_and_hazards.md R231: SRESET gives every element of the block its reset value, as
the reset event does; the host's own lists are not elements of the block (notes/assumptions/2.md). -/
def Obligations.SresetEqualsReset : Prop :=
  decode (.write 0x00 4 0x000000FF) = .instr .sreset ∧ ∀ s : State, exec .sreset s = .next { State.reset with hostMoves := s.hostMoves, hostReads := s.hostReads }

/-- 44_control.md R182: a plain register write stores the whole 32 bits and changes nothing else. -/
def Obligations.PlainWritesStoreTheWord : Prop :=
  ∀ (v : Word) (s : State),
    decode (.write 0x40 4 v) = .instr (.wrSdTag v) ∧ decode (.write 0x44 4 v) = .instr (.wrSdTs v) ∧
    decode (.write 0x48 4 v) = .instr (.wrSdValLo v) ∧ decode (.write 0x4C 4 v) = .instr (.wrSdValHi v) ∧
    decode (.write 0x70 4 v) = .instr (.wrRangeStart v) ∧ decode (.write 0x74 4 v) = .instr (.wrRangeEnd v) ∧
    exec (.wrSdTag v) s = .next { s with sdTag := v } ∧ exec (.wrSdTs v) s = .next { s with sdTs := v } ∧
    exec (.wrSdValLo v) s = .next { s with sdValLo := v } ∧ exec (.wrSdValHi v) s = .next { s with sdValHi := v } ∧
    exec (.wrRangeStart v) s = .next { s with rangeStart := v } ∧ exec (.wrRangeEnd v) s = .next { s with rangeEnd := v }

/-- 44_control.md R183, and the last sentence of 10_state.md section 3 on each register: a plain read returns the
register's value and changes no element of the block, so it may be repeated with the same result (20_memory.md R67). -/
def Obligations.PlainReadsReturnTheRegister : Prop :=
  ∀ (s : State) (r : Reg) (i : Instr), r ≠ .txData → r ≠ .rxData → readInstr r = some i →
    decode (.read r.offset 4) = .instr i ∧ ∃ v, regValue s r = some v ∧ exec i s = .next { s with hostReads := s.hostReads ++ [v] } ∧
      exec i { s with hostReads := s.hostReads ++ [v] } = .next { s with hostReads := s.hostReads ++ [v, v] }

/-- Reads of the six RW registers and of SD_TSTAMP return the element they name (10_state.md R32, R33, R34, R38,
R39). -/
def Obligations.DataRegisterReads : Prop :=
  ∀ s : State,
    exec .rdSdTag s = .next { s with hostReads := s.hostReads ++ [s.sdTag] } ∧
    exec .rdSdTs s = .next { s with hostReads := s.hostReads ++ [s.sdTs] } ∧
    exec .rdSdValLo s = .next { s with hostReads := s.hostReads ++ [s.sdValLo] } ∧
    exec .rdSdValHi s = .next { s with hostReads := s.hostReads ++ [s.sdValHi] } ∧
    exec .rdSdTstamp s = .next { s with hostReads := s.hostReads ++ [s.sdTstamp] } ∧
    exec .rdRangeStart s = .next { s with hostReads := s.hostReads ++ [s.rangeStart] } ∧
    exec .rdRangeEnd s = .next { s with hostReads := s.hostReads ++ [s.rangeEnd] }

/-- 10_state.md R25: the fields of STATUS, reserved bits 0. -/
def Obligations.StatusRegisterFields : Prop :=
  ∀ s : State, ∃ v : Word, exec .rdStatus s = .next { s with hostReads := s.hostReads ++ [v] } ∧
    v.getLsbD 0 = s.txActive ∧ v.getLsbD 1 = s.rxDone ∧
    v.toNat / 4 % 4 = (match s.rxState with | .hunt => 0 | .opened => 1 | .esc => 2) ∧
    v.toNat / 16 % 16 = 0 ∧
    v.toNat / 256 % 16 = (match s.cmdErr with
      | .ok => 0 | .illegal => 1 | .txState => 2 | .txFull => 3 | .rxBusy => 4 | .rxState => 5) ∧
    v.toNat / 4096 = 0

/-- 10_state.md R30: the fields of RX_STATUS, reserved bits 0; LEN is the content's length in every state that
meets the deframer's invariant. -/
def Obligations.RxStatusRegisterFields : Prop :=
  ∀ s : State, RxInv Config.params s →
    ∃ v : Word, exec .rdRxStatus s = .next { s with hostReads := s.hostReads ++ [v] } ∧
    v.toNat % 4 = (match s.rxResult with | .none => 0 | .ok => 1 | .framingError => 2 | .checksumMismatch => 3) ∧
    v.toNat / 4 % 4 = 0 ∧
    v.toNat / 16 % 16 = (match s.rxCause with | .none => 0 | .overflow => 1 | .danglingEsc => 2 | .shortBody => 3) ∧
    v.toNat / 256 % 256 = 0 ∧ v.toNat / 65536 = s.rxContent.length ∧
    (s.rxResult ≠ .ok → v.toNat / 65536 = 0)

/-- 10_state.md R27, R28: TX_LEVEL is the FIFO's length (in every state that meets the TX invariant) and TX_FCS the
accumulator, reserved bits 0; the room a TX command has is TXQ_DEPTH less LEVEL. -/
def Obligations.TxRegisterFields : Prop :=
  ∀ s : State, TxInv Config.params s →
    (∃ v : Word, exec .rdTxLevel s = .next { s with hostReads := s.hostReads ++ [v] } ∧ v.toNat = s.txq.length ∧
      ∀ out : List Byte, roomOk Config.params s out = true ↔ out.length ≤ Config.params.txqDepth - v.toNat) ∧
    (∃ v : Word, exec .rdTxFcs s = .next { s with hostReads := s.hostReads ++ [v] } ∧ v.toNat = s.txAcc.toNat)

/-- 10_state.md R31: the halves of RX_FCS; both are 0 unless the outcome is OK or CHECKSUM_MISMATCH, and equal when
it is OK. -/
def Obligations.RxFcsRegisterFields : Prop :=
  ∀ s : State, RxInv Config.params s →
    ∃ v : Word, exec .rdRxFcs s = .next { s with hostReads := s.hostReads ++ [v] } ∧
      v.toNat % 65536 = s.rxFcsRx.toNat ∧ v.toNat / 65536 = s.rxFcsCalc.toNat ∧
      (s.rxResult ≠ .ok → s.rxResult ≠ .checksumMismatch → v = 0) ∧
      (s.rxResult = .ok → v.toNat % 65536 = v.toNat / 65536)

/-- 10_state.md R35, R36, R37: the fields of SD_RESULT, SD_CODE and SD_MANT, reserved bits 0. -/
def Obligations.SdOutputRegisterFields : Prop :=
  ∀ s : State,
    (∃ v : Word, exec .rdSdResult s = .next { s with hostReads := s.hostReads ++ [v] } ∧
      v.toNat % 4 = (match s.sdStatus with | .none => 0 | .recognized => 1 | .skip => 2 | .shapeError => 3) ∧
      v.toNat / 4 % 4 = 0 ∧ v.toNat / 16 % 16 = s.sdQidx.toNat ∧ v.toNat / 256 % 256 = s.sdWidth.toNat ∧
      v.toNat / 65536 % 256 = s.sdExp.toNat ∧ v.toNat / 16777216 = s.sdReclen.toNat) ∧
    (∃ v : Word, exec .rdSdCode s = .next { s with hostReads := s.hostReads ++ [v] } ∧ v.toNat = s.sdCode.toNat) ∧
    (∃ lo hi : Word, exec .rdSdMantLo s = .next { s with hostReads := s.hostReads ++ [lo] } ∧
      exec .rdSdMantHi s = .next { s with hostReads := s.hostReads ++ [hi] } ∧
      s.sdMant.toNat = hi.toNat * 4294967296 + lo.toNat)

/-- A read of a data register returns the last value written to it, whatever instructions other than its own write
and SRESET come between (20_memory.md section 6: each access sees the effect of every earlier access). -/
def Obligations.ReadReturnsTheLastWrite : Prop :=
  ∀ (r : Reg) (v : Word) (wr rd : Instr) (between : List Instr) (s t : State), r ≠ .cmd →
    decodeWrite v r = .instr wr → readInstr r = some rd →
    (∀ i ∈ between, i ≠ .sreset ∧ ∀ u, decodeWrite u r ≠ .instr i) →
    runInstrs (wr :: between) s = .next t → exec rd t = .next { t with hostReads := t.hostReads ++ [v] }

/-! ### Rules over all instructions -/

/-- 60_exceptions.md R202: a command that fails changes `cmd_err` and nothing else; a command that does not fail
ends with `cmd_err = 0`. -/
def Obligations.FailedCommandChangesOnlyCmdErr : Prop :=
  ∀ (i : Instr) (s t : State), i.isCommand = true → exec i s = .next t →
    t.cmdErr = .ok ∨ t = { s with cmdErr := t.cmdErr }

/-- `cmd_err` is the result of the most recent write to CMD: no other access changes it (10_state.md R43,
70_reset_and_hazards.md R239). -/
def Obligations.OnlyCommandsChangeCmdErr : Prop :=
  ∀ (i : Instr) (s t : State), i.isCommand = false → exec i s = .next t → t.cmdErr = s.cmdErr

/-- The streams are independent, and no other unit is touched (20_memory.md section 6, wire order): an instruction
of the TX framer leaves RX, scalar decoder and input registers alone, one of the RX deframer leaves TX, scalar
decoder and input registers alone. -/
def Obligations.FramerInstructionsTouchTheirOwnUnit : Prop :=
  ∀ (i : Instr) (s t : State), exec i s = .next t →
    (isTx i = true → t.sameRx s ∧ t.sameSdOutputs s ∧ t.sameInputs s) ∧
    (isRx i = true → t.sameTx s ∧ t.sameSdOutputs s ∧ t.sameInputs s)

/-- What a TX instruction does to the TX elements and to `cmd_err`, and what it returns to the host, does not depend on
anything outside the TX elements, and the same for RX (20_memory.md section 6: no TX command reads RX state and no
RX command reads TX state). The reads of TX_DATA and RX_DATA leave `cmd_err` as it is, so for them alone the two
states are taken to agree in it. -/
def Obligations.StreamsDoNotReadEachOther : Prop :=
  ∀ (i : Instr) (s s' t t' : State), exec i s = .next t → exec i s' = .next t' →
    (i.isCommand = false → s.cmdErr = s'.cmdErr) →
    (isTx i = true → s.sameTx s' → t.sameTx t' ∧ t.cmdErr = t'.cmdErr ∧
      ∃ vs, t.hostReads = s.hostReads ++ vs ∧ t'.hostReads = s'.hostReads ++ vs) ∧
    (isRx i = true → s.sameRx s' → t.sameRx t' ∧ t.cmdErr = t'.cmdErr ∧
      ∃ vs, t.hostReads = s.hostReads ++ vs ∧ t'.hostReads = s'.hostReads ++ vs)

/-- Who writes the flags (10_state.md section 8): `tx_active`, `rx_done` and `sd_status` change only by the
instructions the table names. -/
def Obligations.FlagsChangeOnlyByTheirWriters : Prop :=
  ∀ (i : Instr) (s t : State), exec i s = .next t →
    (s.txActive = false → t.txActive = true → i = .txStart) ∧
    (s.txActive = true → t.txActive = false → i = .txEnd ∨ i = .sreset) ∧
    (s.rxDone = false → t.rxDone = true → ∃ w, i = .rxByte w) ∧
    (s.rxDone = true → t.rxDone = false → i = .rxAck ∨ i = .sreset) ∧
    (t.sdStatus ≠ s.sdStatus → i = .sdDecode ∨ i = .sreset)

/-- The outputs of the scalar decoder change only on SD_DECODE and SRESET, and the accumulator TX_FCS shows only on
TX_START, TX_BYTE, TX_RANGE and SRESET (43_scalar_decoder.md section 2; 70_reset_and_hazards.md section 3). -/
def Obligations.ScalarOutputsAndTxFcsAreStable : Prop :=
  ∀ (i : Instr) (s t : State), exec i s = .next t →
    (i ≠ .sdDecode → i ≠ .sreset → t.sameSdOutputs s) ∧
    (i ≠ .txStart → (∀ b, i ≠ .txByte b) → i ≠ .txRange → i ≠ .sreset → t.txAcc = s.txAcc)

/-! ### Reset, the invariant, whole programs -/

/-- 10_state.md R46: the reset value of every state element. -/
def Obligations.ResetStateElements : Prop :=
  let s := State.reset
  s.txActive = false ∧ s.txq = [] ∧ s.txAcc = Config.params.fcsInit ∧ s.rxState = .hunt ∧ s.rxBody = [] ∧
  s.rxDone = false ∧ s.rxResult = .none ∧ s.rxCause = .none ∧ s.rxContent = [] ∧ s.rxFcsRx = 0 ∧ s.rxFcsCalc = 0 ∧
  s.rxRd = 0 ∧ s.cmdErr = .ok ∧ s.sdTag = 0 ∧ s.sdTs = 0 ∧ s.sdValLo = 0 ∧ s.sdValHi = 0 ∧ s.sdStatus = .none ∧
  s.sdQidx = 0 ∧ s.sdWidth = 0 ∧ s.sdExp = 0 ∧ s.sdReclen = 0 ∧ s.sdCode = 0 ∧ s.sdMant = 0 ∧ s.sdTstamp = 0 ∧
  s.rangeStart = 0 ∧ s.rangeEnd = 0

/-- The reset column of the register map (10_state.md section 3): TX_FCS reads FCS_INIT, every other readable
register reads 0. -/
def Obligations.ResetRegisterValues : Prop :=
  ∀ (r : Reg) (i : Instr), readInstr r = some i →
    ∃ t, exec i State.reset = .next t ∧
      t.hostReads = [if r = .txFcs then Config.params.fcsInit.setWidth 32 else 0x00000000]

/-- The invariant of the state elements (10_state.md sections 3 and 4) holds at reset. -/
def Obligations.ResetMeetsTheInvariant : Prop := State.Inv Config.params State.reset

/-- Every step from a state that meets the invariant leads to one that meets it (10_state.md section 4: the
invariants of the RX elements and the bounds of the FIFO and the body; 42_rx_deframer.md section 4). -/
def Obligations.EveryStepKeepsTheInvariant : Prop :=
  ∀ s t : State, State.Inv Config.params s → step s = .next t → State.Inv Config.params t

/-- A program whose accesses raise no bus error runs to its end, one step a move, from any state, whatever commands
fail on the way (70_reset_and_hazards.md sections 3 and 5; 60_exceptions.md section 1: no error is fatal). -/
def Obligations.SafeProgramsRunToTheirEnd : Prop :=
  ∀ s : State, safeProgram s.hostMoves = true →
    ∃ t, Host.Core.run Sys2Proof.core s.hostMoves.length s = .next t ∧ t.hostMoves = []

/-- A program of instructions runs as they do one after the other (70_reset_and_hazards.md section 5). -/
def Obligations.ProgramRunsItsInstructionsInOrder : Prop :=
  ∀ (is : List Instr) (s t : State), s.hostMoves = [] → runInstrs is s = .next t →
    Host.Core.run Sys2Proof.core is.length { s with hostMoves := movesOf is } = .next t
end

