-- ==== Sys2Proof/Laws/Decode.lean ====
section
/-! SUPPORT. The fields of a CMD word as numbers, and what the decoder's parts answer. -/

namespace Sys2Proof

/-- OPC as a number. -/
theorem opcOf_toNat (v : Word) : (opcOf v).toNat = v.toNat % 256 := by simp [opcOf, BitVec.extractLsb'_toNat]

/-- ARG as a number. -/
theorem argOf_toNat (v : Word) : (argOf v).toNat = v.toNat / 256 % 256 := by
  simp [argOf, BitVec.extractLsb'_toNat, Nat.shiftRight_eq_div_pow]

/-- RSV as a number. -/
theorem rsvOf_toNat (v : Word) : (rsvOf v).toNat = v.toNat / 65536 := by
  have := v.isLt
  simp only [rsvOf, BitVec.extractLsb'_toNat, Nat.shiftRight_eq_div_pow]
  omega

/-- A CMD word as a number. -/
theorem cmdWord_toNat (opc arg : Byte) : (cmdWord opc arg).toNat = arg.toNat * 256 + opc.toNat := by
  have h := opc.isLt
  simp only [cmdWord, BitVec.toNat_append]
  rw [← Nat.shiftLeft_add_eq_or_of_lt h]
  simp [Nat.shiftLeft_eq]

@[simp] theorem opcOf_cmdWord (opc arg : Byte) : opcOf (cmdWord opc arg) = opc := by
  apply BitVec.eq_of_toNat_eq
  have h := opc.isLt
  rw [opcOf_toNat, cmdWord_toNat]
  omega

@[simp] theorem argOf_cmdWord (opc arg : Byte) : argOf (cmdWord opc arg) = arg := by
  apply BitVec.eq_of_toNat_eq
  have h := opc.isLt
  have h' := arg.isLt
  rw [argOf_toNat, cmdWord_toNat]
  omega

@[simp] theorem rsvOf_cmdWord (opc arg : Byte) : rsvOf (cmdWord opc arg) = 0 := by
  apply BitVec.eq_of_toNat_eq
  have h := opc.isLt
  have h' := arg.isLt
  rw [rsvOf_toNat, cmdWord_toNat]
  show _ = 0
  omega

/-- A CMD word is made of its opcode and its argument exactly when its reserved half is 0. -/
theorem eq_cmdWord {v : Word} (h : rsvOf v = 0) : v = cmdWord (opcOf v) (argOf v) := by
  have h0 : v.toNat / 65536 = 0 := by rw [← rsvOf_toNat, h]; rfl
  apply BitVec.eq_of_toNat_eq
  rw [cmdWord_toNat, opcOf_toNat, argOf_toNat]
  omega

/-- The register at its own offset is itself: no two registers share an offset. -/
@[simp] theorem regAt_offset (r : Reg) : regAt r.offset = some r := by cases r <;> rfl

/-- The register mapped at an offset has that offset. -/
theorem offset_of_regAt {off : Nat} {r : Reg} (h : regAt off = some r) : r.offset = off := by
  have := List.find?_some h
  simpa using this

/-- Every register's offset is aligned. -/
theorem offset_aligned (r : Reg) : r.offset % 4 = 0 := by cases r <;> rfl

/-- The bus checks that do not depend on the direction: what they answer when they pass. -/
theorem locate_ok {off n : Nat} {r : Reg} (h : locate off n = .ok r) : n = 4 ∧ off = r.offset := by
  unfold locate at h
  split at h
  · cases h
  · split at h
    · cases h
    · split at h
      · cases h
      · cases h
        rename_i hn _ _ hr
        exact ⟨by simpa using hn, (offset_of_regAt hr).symm⟩

@[simp] theorem locate_offset (r : Reg) : locate r.offset 4 = .ok r := by
  simp [locate, offset_aligned]

/-- An assigned opcode's command. -/
theorem commandOf_ne_none {opc arg : Byte} (h : opc ∈ assignedOpcodes) : ∃ i, commandOf opc arg = some i := by
  simp only [assignedOpcodes, List.mem_cons, List.not_mem_nil, or_false] at h
  rcases h with h | h | h | h | h | h | h | h | h <;> subst h <;> exact ⟨_, rfl⟩

/-- An unassigned opcode has no command. -/
theorem commandOf_eq_none {opc arg : Byte} (h : opc ∉ assignedOpcodes) : commandOf opc arg = none := by
  simp only [assignedOpcodes, List.mem_cons, List.not_mem_nil, or_false, not_or] at h
  obtain ⟨h0, h1, h2, h3, h4, h5, h6, h7, h8⟩ := h
  rw [commandOf, if_neg h0, if_neg h1, if_neg h2, if_neg h3, if_neg h4, if_neg h5, if_neg h6, if_neg h7, if_neg h8]

/-- Everything the CMD decoder can answer: an illegal word, or the command of its opcode. -/
theorem decodeCmd_cases (v : Word) :
    (∃ why, decodeCmd v = .illegal why) ∨
    (rsvOf v = 0 ∧ (argOf v = 0 ∨ takesArg (opcOf v) = true) ∧
      ∃ i, commandOf (opcOf v) (argOf v) = some i ∧ decodeCmd v = .instr i) := by
  unfold decodeCmd
  split
  · exact .inl ⟨_, rfl⟩
  · rename_i h
    split
    · exact .inl ⟨_, rfl⟩
    · rename_i i hi
      split
      · exact .inl ⟨_, rfl⟩
      · rename_i ha
        refine .inr ⟨by simpa using h, ?_, i, hi, rfl⟩
        by_cases h0 : argOf v = 0
        · exact .inl h0
        · exact .inr (by simpa using fun h => ha ⟨h0, h⟩)

end Sys2Proof
end

