-- ==== Sys2Proof/Laws/Frame.lean ====
section
/-! SUPPORT. Bytes of wider values, the values data reads return, escaping and the checksum fold. -/

namespace Sys2Proof.Machine

open Sys2Proof.Config (Params)

/-! ### Bytes -/

/-- A 16-bit value as its two bytes, low byte first. -/
theorem le16_toNat (b0 b1 : Byte) : (le16 b0 b1).toNat = b1.toNat * 256 + b0.toNat := by
  rw [le16, BitVec.toNat_append, ← Nat.shiftLeft_add_eq_or_of_lt b0.isLt, Nat.shiftLeft_eq]

theorem lo8_toNat (x : Half) : (lo8 x).toNat = x.toNat % 256 := by simp [lo8, BitVec.extractLsb'_toNat]

theorem hi8_toNat (x : Half) : (hi8 x).toNat = x.toNat / 256 := by
  have := x.isLt
  simp only [hi8, BitVec.extractLsb'_toNat, Nat.shiftRight_eq_div_pow]
  omega

@[simp] theorem le16_lo8_hi8 (x : Half) : le16 (lo8 x) (hi8 x) = x := by
  apply BitVec.eq_of_toNat_eq
  rw [le16_toNat, lo8_toNat, hi8_toNat]
  omega

/-- A returned data byte in the form of 41_tx_framer.md R125. -/
theorem validByte_eq (b : Byte) : validByte b = 0x00000100 ||| b.setWidth 32 := by revert b; decide

theorem validByte_valid (b : Byte) : (validByte b).getLsbD 8 = true := by revert b; decide

@[simp] theorem validByte_data (b : Byte) : (validByte b).extractLsb' 0 8 = b := by revert b; decide

theorem noByte_valid : noByte.getLsbD 8 = false := rfl

/-! ### Escaping -/

@[simp] theorem escs_nil : escs [] = [] := rfl

@[simp] theorem escs_cons (b : Byte) (l : List Byte) : escs (b :: l) = esc b ++ escs l := rfl

@[simp] theorem escs_append (l m : List Byte) : escs (l ++ m) = escs l ++ escs m := by
  induction l with
  | nil => rfl
  | cons b l ih => simp [ih]

theorem esc_of_mem {b : Byte} (h : b ∈ escapedSet) : esc b = [escb, b ^^^ xmask] := if_pos h

theorem esc_of_not_mem {b : Byte} (h : b ∉ escapedSet) : esc b = [b] := if_neg h

/-- One byte is escaped to one or two. -/
theorem esc_length (b : Byte) : 1 ≤ (esc b).length ∧ (esc b).length ≤ 2 := by
  unfold esc; split <;> simp

theorem escs_length (l : List Byte) : l.length ≤ (escs l).length ∧ (escs l).length ≤ 2 * l.length := by
  induction l with
  | nil => simp
  | cons b l ih => have := esc_length b; simp only [escs_cons, List.length_append, List.length_cons]; omega

/-- `escs` as one map over the bytes. -/
theorem escs_eq_flatMap (l : List Byte) : escs l = l.flatMap esc := by
  induction l with
  | nil => rfl
  | cons b l ih => rw [escs_cons, ih, List.flatMap_cons]

/-! ### The checksum fold -/

@[simp] theorem fcsFold_nil (P : Params) (acc : Half) : fcsFold P acc [] = acc := rfl

@[simp] theorem fcsFold_cons (P : Params) (acc : Half) (b : Byte) (l : List Byte) :
    fcsFold P acc (b :: l) = fcsFold P (P.fcsUpd acc b) l := rfl

theorem fcsFold_append (P : Params) (acc : Half) (l m : List Byte) :
    fcsFold P acc (l ++ m) = fcsFold P (fcsFold P acc l) m := by simp [fcsFold]

@[simp] theorem bodyOf_length (P : Params) (c : List Byte) : (bodyOf P c).length = c.length + 2 := by
  simp [bodyOf, fcsBytes]

end Sys2Proof.Machine
end

