-- ==== Sys2Proof/Laws/State.lean ====
section
/-! SUPPORT. What each shared update of Machine/Ops.lean does to each field of State: one lemma a field, so that no
proof unfolds a record update. -/

namespace Sys2Proof.Machine

variable (s : State)

/-! ### `State.failWith` -/

@[simp] theorem State.failWith_txActive (code : CmdErr) : (s.failWith code).txActive = s.txActive := rfl
@[simp] theorem State.failWith_txq (code : CmdErr) : (s.failWith code).txq = s.txq := rfl
@[simp] theorem State.failWith_txAcc (code : CmdErr) : (s.failWith code).txAcc = s.txAcc := rfl
@[simp] theorem State.failWith_rxState (code : CmdErr) : (s.failWith code).rxState = s.rxState := rfl
@[simp] theorem State.failWith_rxBody (code : CmdErr) : (s.failWith code).rxBody = s.rxBody := rfl
@[simp] theorem State.failWith_rxDone (code : CmdErr) : (s.failWith code).rxDone = s.rxDone := rfl
@[simp] theorem State.failWith_rxResult (code : CmdErr) : (s.failWith code).rxResult = s.rxResult := rfl
@[simp] theorem State.failWith_rxCause (code : CmdErr) : (s.failWith code).rxCause = s.rxCause := rfl
@[simp] theorem State.failWith_rxContent (code : CmdErr) : (s.failWith code).rxContent = s.rxContent := rfl
@[simp] theorem State.failWith_rxFcsRx (code : CmdErr) : (s.failWith code).rxFcsRx = s.rxFcsRx := rfl
@[simp] theorem State.failWith_rxFcsCalc (code : CmdErr) : (s.failWith code).rxFcsCalc = s.rxFcsCalc := rfl
@[simp] theorem State.failWith_rxRd (code : CmdErr) : (s.failWith code).rxRd = s.rxRd := rfl
@[simp] theorem State.failWith_cmdErr (code : CmdErr) : (s.failWith code).cmdErr = code := rfl
@[simp] theorem State.failWith_sdTag (code : CmdErr) : (s.failWith code).sdTag = s.sdTag := rfl
@[simp] theorem State.failWith_sdTs (code : CmdErr) : (s.failWith code).sdTs = s.sdTs := rfl
@[simp] theorem State.failWith_sdValLo (code : CmdErr) : (s.failWith code).sdValLo = s.sdValLo := rfl
@[simp] theorem State.failWith_sdValHi (code : CmdErr) : (s.failWith code).sdValHi = s.sdValHi := rfl
@[simp] theorem State.failWith_sdStatus (code : CmdErr) : (s.failWith code).sdStatus = s.sdStatus := rfl
@[simp] theorem State.failWith_sdQidx (code : CmdErr) : (s.failWith code).sdQidx = s.sdQidx := rfl
@[simp] theorem State.failWith_sdWidth (code : CmdErr) : (s.failWith code).sdWidth = s.sdWidth := rfl
@[simp] theorem State.failWith_sdExp (code : CmdErr) : (s.failWith code).sdExp = s.sdExp := rfl
@[simp] theorem State.failWith_sdReclen (code : CmdErr) : (s.failWith code).sdReclen = s.sdReclen := rfl
@[simp] theorem State.failWith_sdCode (code : CmdErr) : (s.failWith code).sdCode = s.sdCode := rfl
@[simp] theorem State.failWith_sdMant (code : CmdErr) : (s.failWith code).sdMant = s.sdMant := rfl
@[simp] theorem State.failWith_sdTstamp (code : CmdErr) : (s.failWith code).sdTstamp = s.sdTstamp := rfl
@[simp] theorem State.failWith_rangeStart (code : CmdErr) : (s.failWith code).rangeStart = s.rangeStart := rfl
@[simp] theorem State.failWith_rangeEnd (code : CmdErr) : (s.failWith code).rangeEnd = s.rangeEnd := rfl
@[simp] theorem State.failWith_hostMoves (code : CmdErr) : (s.failWith code).hostMoves = s.hostMoves := rfl
@[simp] theorem State.failWith_hostReads (code : CmdErr) : (s.failWith code).hostReads = s.hostReads := rfl

/-! ### `State.succeed` -/

@[simp] theorem State.succeed_txActive : (s.succeed).txActive = s.txActive := rfl
@[simp] theorem State.succeed_txq : (s.succeed).txq = s.txq := rfl
@[simp] theorem State.succeed_txAcc : (s.succeed).txAcc = s.txAcc := rfl
@[simp] theorem State.succeed_rxState : (s.succeed).rxState = s.rxState := rfl
@[simp] theorem State.succeed_rxBody : (s.succeed).rxBody = s.rxBody := rfl
@[simp] theorem State.succeed_rxDone : (s.succeed).rxDone = s.rxDone := rfl
@[simp] theorem State.succeed_rxResult : (s.succeed).rxResult = s.rxResult := rfl
@[simp] theorem State.succeed_rxCause : (s.succeed).rxCause = s.rxCause := rfl
@[simp] theorem State.succeed_rxContent : (s.succeed).rxContent = s.rxContent := rfl
@[simp] theorem State.succeed_rxFcsRx : (s.succeed).rxFcsRx = s.rxFcsRx := rfl
@[simp] theorem State.succeed_rxFcsCalc : (s.succeed).rxFcsCalc = s.rxFcsCalc := rfl
@[simp] theorem State.succeed_rxRd : (s.succeed).rxRd = s.rxRd := rfl
@[simp] theorem State.succeed_cmdErr : (s.succeed).cmdErr = .ok := rfl
@[simp] theorem State.succeed_sdTag : (s.succeed).sdTag = s.sdTag := rfl
@[simp] theorem State.succeed_sdTs : (s.succeed).sdTs = s.sdTs := rfl
@[simp] theorem State.succeed_sdValLo : (s.succeed).sdValLo = s.sdValLo := rfl
@[simp] theorem State.succeed_sdValHi : (s.succeed).sdValHi = s.sdValHi := rfl
@[simp] theorem State.succeed_sdStatus : (s.succeed).sdStatus = s.sdStatus := rfl
@[simp] theorem State.succeed_sdQidx : (s.succeed).sdQidx = s.sdQidx := rfl
@[simp] theorem State.succeed_sdWidth : (s.succeed).sdWidth = s.sdWidth := rfl
@[simp] theorem State.succeed_sdExp : (s.succeed).sdExp = s.sdExp := rfl
@[simp] theorem State.succeed_sdReclen : (s.succeed).sdReclen = s.sdReclen := rfl
@[simp] theorem State.succeed_sdCode : (s.succeed).sdCode = s.sdCode := rfl
@[simp] theorem State.succeed_sdMant : (s.succeed).sdMant = s.sdMant := rfl
@[simp] theorem State.succeed_sdTstamp : (s.succeed).sdTstamp = s.sdTstamp := rfl
@[simp] theorem State.succeed_rangeStart : (s.succeed).rangeStart = s.rangeStart := rfl
@[simp] theorem State.succeed_rangeEnd : (s.succeed).rangeEnd = s.rangeEnd := rfl
@[simp] theorem State.succeed_hostMoves : (s.succeed).hostMoves = s.hostMoves := rfl
@[simp] theorem State.succeed_hostReads : (s.succeed).hostReads = s.hostReads := rfl

/-! ### `State.returnRead` -/

@[simp] theorem State.returnRead_txActive (v : Word) : (s.returnRead v).txActive = s.txActive := rfl
@[simp] theorem State.returnRead_txq (v : Word) : (s.returnRead v).txq = s.txq := rfl
@[simp] theorem State.returnRead_txAcc (v : Word) : (s.returnRead v).txAcc = s.txAcc := rfl
@[simp] theorem State.returnRead_rxState (v : Word) : (s.returnRead v).rxState = s.rxState := rfl
@[simp] theorem State.returnRead_rxBody (v : Word) : (s.returnRead v).rxBody = s.rxBody := rfl
@[simp] theorem State.returnRead_rxDone (v : Word) : (s.returnRead v).rxDone = s.rxDone := rfl
@[simp] theorem State.returnRead_rxResult (v : Word) : (s.returnRead v).rxResult = s.rxResult := rfl
@[simp] theorem State.returnRead_rxCause (v : Word) : (s.returnRead v).rxCause = s.rxCause := rfl
@[simp] theorem State.returnRead_rxContent (v : Word) : (s.returnRead v).rxContent = s.rxContent := rfl
@[simp] theorem State.returnRead_rxFcsRx (v : Word) : (s.returnRead v).rxFcsRx = s.rxFcsRx := rfl
@[simp] theorem State.returnRead_rxFcsCalc (v : Word) : (s.returnRead v).rxFcsCalc = s.rxFcsCalc := rfl
@[simp] theorem State.returnRead_rxRd (v : Word) : (s.returnRead v).rxRd = s.rxRd := rfl
@[simp] theorem State.returnRead_cmdErr (v : Word) : (s.returnRead v).cmdErr = s.cmdErr := rfl
@[simp] theorem State.returnRead_sdTag (v : Word) : (s.returnRead v).sdTag = s.sdTag := rfl
@[simp] theorem State.returnRead_sdTs (v : Word) : (s.returnRead v).sdTs = s.sdTs := rfl
@[simp] theorem State.returnRead_sdValLo (v : Word) : (s.returnRead v).sdValLo = s.sdValLo := rfl
@[simp] theorem State.returnRead_sdValHi (v : Word) : (s.returnRead v).sdValHi = s.sdValHi := rfl
@[simp] theorem State.returnRead_sdStatus (v : Word) : (s.returnRead v).sdStatus = s.sdStatus := rfl
@[simp] theorem State.returnRead_sdQidx (v : Word) : (s.returnRead v).sdQidx = s.sdQidx := rfl
@[simp] theorem State.returnRead_sdWidth (v : Word) : (s.returnRead v).sdWidth = s.sdWidth := rfl
@[simp] theorem State.returnRead_sdExp (v : Word) : (s.returnRead v).sdExp = s.sdExp := rfl
@[simp] theorem State.returnRead_sdReclen (v : Word) : (s.returnRead v).sdReclen = s.sdReclen := rfl
@[simp] theorem State.returnRead_sdCode (v : Word) : (s.returnRead v).sdCode = s.sdCode := rfl
@[simp] theorem State.returnRead_sdMant (v : Word) : (s.returnRead v).sdMant = s.sdMant := rfl
@[simp] theorem State.returnRead_sdTstamp (v : Word) : (s.returnRead v).sdTstamp = s.sdTstamp := rfl
@[simp] theorem State.returnRead_rangeStart (v : Word) : (s.returnRead v).rangeStart = s.rangeStart := rfl
@[simp] theorem State.returnRead_rangeEnd (v : Word) : (s.returnRead v).rangeEnd = s.rangeEnd := rfl
@[simp] theorem State.returnRead_hostMoves (v : Word) : (s.returnRead v).hostMoves = s.hostMoves := rfl
@[simp] theorem State.returnRead_hostReads (v : Word) : (s.returnRead v).hostReads = s.hostReads ++ [v] := rfl

/-! ### `State.pushTx` -/

@[simp] theorem State.pushTx_txActive (out : List Byte) : (s.pushTx out).txActive = s.txActive := rfl
@[simp] theorem State.pushTx_txq (out : List Byte) : (s.pushTx out).txq = s.txq ++ out := rfl
@[simp] theorem State.pushTx_txAcc (out : List Byte) : (s.pushTx out).txAcc = s.txAcc := rfl
@[simp] theorem State.pushTx_rxState (out : List Byte) : (s.pushTx out).rxState = s.rxState := rfl
@[simp] theorem State.pushTx_rxBody (out : List Byte) : (s.pushTx out).rxBody = s.rxBody := rfl
@[simp] theorem State.pushTx_rxDone (out : List Byte) : (s.pushTx out).rxDone = s.rxDone := rfl
@[simp] theorem State.pushTx_rxResult (out : List Byte) : (s.pushTx out).rxResult = s.rxResult := rfl
@[simp] theorem State.pushTx_rxCause (out : List Byte) : (s.pushTx out).rxCause = s.rxCause := rfl
@[simp] theorem State.pushTx_rxContent (out : List Byte) : (s.pushTx out).rxContent = s.rxContent := rfl
@[simp] theorem State.pushTx_rxFcsRx (out : List Byte) : (s.pushTx out).rxFcsRx = s.rxFcsRx := rfl
@[simp] theorem State.pushTx_rxFcsCalc (out : List Byte) : (s.pushTx out).rxFcsCalc = s.rxFcsCalc := rfl
@[simp] theorem State.pushTx_rxRd (out : List Byte) : (s.pushTx out).rxRd = s.rxRd := rfl
@[simp] theorem State.pushTx_cmdErr (out : List Byte) : (s.pushTx out).cmdErr = s.cmdErr := rfl
@[simp] theorem State.pushTx_sdTag (out : List Byte) : (s.pushTx out).sdTag = s.sdTag := rfl
@[simp] theorem State.pushTx_sdTs (out : List Byte) : (s.pushTx out).sdTs = s.sdTs := rfl
@[simp] theorem State.pushTx_sdValLo (out : List Byte) : (s.pushTx out).sdValLo = s.sdValLo := rfl
@[simp] theorem State.pushTx_sdValHi (out : List Byte) : (s.pushTx out).sdValHi = s.sdValHi := rfl
@[simp] theorem State.pushTx_sdStatus (out : List Byte) : (s.pushTx out).sdStatus = s.sdStatus := rfl
@[simp] theorem State.pushTx_sdQidx (out : List Byte) : (s.pushTx out).sdQidx = s.sdQidx := rfl
@[simp] theorem State.pushTx_sdWidth (out : List Byte) : (s.pushTx out).sdWidth = s.sdWidth := rfl
@[simp] theorem State.pushTx_sdExp (out : List Byte) : (s.pushTx out).sdExp = s.sdExp := rfl
@[simp] theorem State.pushTx_sdReclen (out : List Byte) : (s.pushTx out).sdReclen = s.sdReclen := rfl
@[simp] theorem State.pushTx_sdCode (out : List Byte) : (s.pushTx out).sdCode = s.sdCode := rfl
@[simp] theorem State.pushTx_sdMant (out : List Byte) : (s.pushTx out).sdMant = s.sdMant := rfl
@[simp] theorem State.pushTx_sdTstamp (out : List Byte) : (s.pushTx out).sdTstamp = s.sdTstamp := rfl
@[simp] theorem State.pushTx_rangeStart (out : List Byte) : (s.pushTx out).rangeStart = s.rangeStart := rfl
@[simp] theorem State.pushTx_rangeEnd (out : List Byte) : (s.pushTx out).rangeEnd = s.rangeEnd := rfl
@[simp] theorem State.pushTx_hostMoves (out : List Byte) : (s.pushTx out).hostMoves = s.hostMoves := rfl
@[simp] theorem State.pushTx_hostReads (out : List Byte) : (s.pushTx out).hostReads = s.hostReads := rfl

/-! ### `State.latch` -/

@[simp] theorem State.latch_txActive (kind : RxResult) (cause : RxCause) (content : List Byte) (frx fcalc : Half) :
    (s.latch kind cause content frx fcalc).txActive = s.txActive := rfl
@[simp] theorem State.latch_txq (kind : RxResult) (cause : RxCause) (content : List Byte) (frx fcalc : Half) :
    (s.latch kind cause content frx fcalc).txq = s.txq := rfl
@[simp] theorem State.latch_txAcc (kind : RxResult) (cause : RxCause) (content : List Byte) (frx fcalc : Half) :
    (s.latch kind cause content frx fcalc).txAcc = s.txAcc := rfl
@[simp] theorem State.latch_rxState (kind : RxResult) (cause : RxCause) (content : List Byte) (frx fcalc : Half) :
    (s.latch kind cause content frx fcalc).rxState = s.rxState := rfl
@[simp] theorem State.latch_rxBody (kind : RxResult) (cause : RxCause) (content : List Byte) (frx fcalc : Half) :
    (s.latch kind cause content frx fcalc).rxBody = [] := rfl
@[simp] theorem State.latch_rxDone (kind : RxResult) (cause : RxCause) (content : List Byte) (frx fcalc : Half) :
    (s.latch kind cause content frx fcalc).rxDone = true := rfl
@[simp] theorem State.latch_rxResult (kind : RxResult) (cause : RxCause) (content : List Byte) (frx fcalc : Half) :
    (s.latch kind cause content frx fcalc).rxResult = kind := rfl
@[simp] theorem State.latch_rxCause (kind : RxResult) (cause : RxCause) (content : List Byte) (frx fcalc : Half) :
    (s.latch kind cause content frx fcalc).rxCause = cause := rfl
@[simp] theorem State.latch_rxContent (kind : RxResult) (cause : RxCause) (content : List Byte) (frx fcalc : Half) :
    (s.latch kind cause content frx fcalc).rxContent = content := rfl
@[simp] theorem State.latch_rxFcsRx (kind : RxResult) (cause : RxCause) (content : List Byte) (frx fcalc : Half) :
    (s.latch kind cause content frx fcalc).rxFcsRx = frx := rfl
@[simp] theorem State.latch_rxFcsCalc (kind : RxResult) (cause : RxCause) (content : List Byte) (frx fcalc : Half) :
    (s.latch kind cause content frx fcalc).rxFcsCalc = fcalc := rfl
@[simp] theorem State.latch_rxRd (kind : RxResult) (cause : RxCause) (content : List Byte) (frx fcalc : Half) :
    (s.latch kind cause content frx fcalc).rxRd = 0 := rfl
@[simp] theorem State.latch_cmdErr (kind : RxResult) (cause : RxCause) (content : List Byte) (frx fcalc : Half) :
    (s.latch kind cause content frx fcalc).cmdErr = s.cmdErr := rfl
@[simp] theorem State.latch_sdTag (kind : RxResult) (cause : RxCause) (content : List Byte) (frx fcalc : Half) :
    (s.latch kind cause content frx fcalc).sdTag = s.sdTag := rfl
@[simp] theorem State.latch_sdTs (kind : RxResult) (cause : RxCause) (content : List Byte) (frx fcalc : Half) :
    (s.latch kind cause content frx fcalc).sdTs = s.sdTs := rfl
@[simp] theorem State.latch_sdValLo (kind : RxResult) (cause : RxCause) (content : List Byte) (frx fcalc : Half) :
    (s.latch kind cause content frx fcalc).sdValLo = s.sdValLo := rfl
@[simp] theorem State.latch_sdValHi (kind : RxResult) (cause : RxCause) (content : List Byte) (frx fcalc : Half) :
    (s.latch kind cause content frx fcalc).sdValHi = s.sdValHi := rfl
@[simp] theorem State.latch_sdStatus (kind : RxResult) (cause : RxCause) (content : List Byte) (frx fcalc : Half) :
    (s.latch kind cause content frx fcalc).sdStatus = s.sdStatus := rfl
@[simp] theorem State.latch_sdQidx (kind : RxResult) (cause : RxCause) (content : List Byte) (frx fcalc : Half) :
    (s.latch kind cause content frx fcalc).sdQidx = s.sdQidx := rfl
@[simp] theorem State.latch_sdWidth (kind : RxResult) (cause : RxCause) (content : List Byte) (frx fcalc : Half) :
    (s.latch kind cause content frx fcalc).sdWidth = s.sdWidth := rfl
@[simp] theorem State.latch_sdExp (kind : RxResult) (cause : RxCause) (content : List Byte) (frx fcalc : Half) :
    (s.latch kind cause content frx fcalc).sdExp = s.sdExp := rfl
@[simp] theorem State.latch_sdReclen (kind : RxResult) (cause : RxCause) (content : List Byte) (frx fcalc : Half) :
    (s.latch kind cause content frx fcalc).sdReclen = s.sdReclen := rfl
@[simp] theorem State.latch_sdCode (kind : RxResult) (cause : RxCause) (content : List Byte) (frx fcalc : Half) :
    (s.latch kind cause content frx fcalc).sdCode = s.sdCode := rfl
@[simp] theorem State.latch_sdMant (kind : RxResult) (cause : RxCause) (content : List Byte) (frx fcalc : Half) :
    (s.latch kind cause content frx fcalc).sdMant = s.sdMant := rfl
@[simp] theorem State.latch_sdTstamp (kind : RxResult) (cause : RxCause) (content : List Byte) (frx fcalc : Half) :
    (s.latch kind cause content frx fcalc).sdTstamp = s.sdTstamp := rfl
@[simp] theorem State.latch_rangeStart (kind : RxResult) (cause : RxCause) (content : List Byte) (frx fcalc : Half) :
    (s.latch kind cause content frx fcalc).rangeStart = s.rangeStart := rfl
@[simp] theorem State.latch_rangeEnd (kind : RxResult) (cause : RxCause) (content : List Byte) (frx fcalc : Half) :
    (s.latch kind cause content frx fcalc).rangeEnd = s.rangeEnd := rfl
@[simp] theorem State.latch_hostMoves (kind : RxResult) (cause : RxCause) (content : List Byte) (frx fcalc : Half) :
    (s.latch kind cause content frx fcalc).hostMoves = s.hostMoves := rfl
@[simp] theorem State.latch_hostReads (kind : RxResult) (cause : RxCause) (content : List Byte) (frx fcalc : Half) :
    (s.latch kind cause content frx fcalc).hostReads = s.hostReads := rfl

/-! ### `State.unlatch` -/

@[simp] theorem State.unlatch_txActive : (s.unlatch).txActive = s.txActive := rfl
@[simp] theorem State.unlatch_txq : (s.unlatch).txq = s.txq := rfl
@[simp] theorem State.unlatch_txAcc : (s.unlatch).txAcc = s.txAcc := rfl
@[simp] theorem State.unlatch_rxState : (s.unlatch).rxState = s.rxState := rfl
@[simp] theorem State.unlatch_rxBody : (s.unlatch).rxBody = s.rxBody := rfl
@[simp] theorem State.unlatch_rxDone : (s.unlatch).rxDone = false := rfl
@[simp] theorem State.unlatch_rxResult : (s.unlatch).rxResult = .none := rfl
@[simp] theorem State.unlatch_rxCause : (s.unlatch).rxCause = .none := rfl
@[simp] theorem State.unlatch_rxContent : (s.unlatch).rxContent = [] := rfl
@[simp] theorem State.unlatch_rxFcsRx : (s.unlatch).rxFcsRx = 0 := rfl
@[simp] theorem State.unlatch_rxFcsCalc : (s.unlatch).rxFcsCalc = 0 := rfl
@[simp] theorem State.unlatch_rxRd : (s.unlatch).rxRd = 0 := rfl
@[simp] theorem State.unlatch_cmdErr : (s.unlatch).cmdErr = s.cmdErr := rfl
@[simp] theorem State.unlatch_sdTag : (s.unlatch).sdTag = s.sdTag := rfl
@[simp] theorem State.unlatch_sdTs : (s.unlatch).sdTs = s.sdTs := rfl
@[simp] theorem State.unlatch_sdValLo : (s.unlatch).sdValLo = s.sdValLo := rfl
@[simp] theorem State.unlatch_sdValHi : (s.unlatch).sdValHi = s.sdValHi := rfl
@[simp] theorem State.unlatch_sdStatus : (s.unlatch).sdStatus = s.sdStatus := rfl
@[simp] theorem State.unlatch_sdQidx : (s.unlatch).sdQidx = s.sdQidx := rfl
@[simp] theorem State.unlatch_sdWidth : (s.unlatch).sdWidth = s.sdWidth := rfl
@[simp] theorem State.unlatch_sdExp : (s.unlatch).sdExp = s.sdExp := rfl
@[simp] theorem State.unlatch_sdReclen : (s.unlatch).sdReclen = s.sdReclen := rfl
@[simp] theorem State.unlatch_sdCode : (s.unlatch).sdCode = s.sdCode := rfl
@[simp] theorem State.unlatch_sdMant : (s.unlatch).sdMant = s.sdMant := rfl
@[simp] theorem State.unlatch_sdTstamp : (s.unlatch).sdTstamp = s.sdTstamp := rfl
@[simp] theorem State.unlatch_rangeStart : (s.unlatch).rangeStart = s.rangeStart := rfl
@[simp] theorem State.unlatch_rangeEnd : (s.unlatch).rangeEnd = s.rangeEnd := rfl
@[simp] theorem State.unlatch_hostMoves : (s.unlatch).hostMoves = s.hostMoves := rfl
@[simp] theorem State.unlatch_hostReads : (s.unlatch).hostReads = s.hostReads := rfl

/-! ### `State.sdLatch` -/

@[simp] theorem State.sdLatch_txActive (status : SdStatus) (qidx : BitVec 4) (width exp reclen : Byte) (mant : Dword) :
    (s.sdLatch status qidx width exp reclen mant).txActive = s.txActive := rfl
@[simp] theorem State.sdLatch_txq (status : SdStatus) (qidx : BitVec 4) (width exp reclen : Byte) (mant : Dword) :
    (s.sdLatch status qidx width exp reclen mant).txq = s.txq := rfl
@[simp] theorem State.sdLatch_txAcc (status : SdStatus) (qidx : BitVec 4) (width exp reclen : Byte) (mant : Dword) :
    (s.sdLatch status qidx width exp reclen mant).txAcc = s.txAcc := rfl
@[simp] theorem State.sdLatch_rxState (status : SdStatus) (qidx : BitVec 4) (width exp reclen : Byte) (mant : Dword) :
    (s.sdLatch status qidx width exp reclen mant).rxState = s.rxState := rfl
@[simp] theorem State.sdLatch_rxBody (status : SdStatus) (qidx : BitVec 4) (width exp reclen : Byte) (mant : Dword) :
    (s.sdLatch status qidx width exp reclen mant).rxBody = s.rxBody := rfl
@[simp] theorem State.sdLatch_rxDone (status : SdStatus) (qidx : BitVec 4) (width exp reclen : Byte) (mant : Dword) :
    (s.sdLatch status qidx width exp reclen mant).rxDone = s.rxDone := rfl
@[simp] theorem State.sdLatch_rxResult (status : SdStatus) (qidx : BitVec 4) (width exp reclen : Byte) (mant : Dword) :
    (s.sdLatch status qidx width exp reclen mant).rxResult = s.rxResult := rfl
@[simp] theorem State.sdLatch_rxCause (status : SdStatus) (qidx : BitVec 4) (width exp reclen : Byte) (mant : Dword) :
    (s.sdLatch status qidx width exp reclen mant).rxCause = s.rxCause := rfl
@[simp] theorem State.sdLatch_rxContent (status : SdStatus) (qidx : BitVec 4) (width exp reclen : Byte) (mant : Dword) :
    (s.sdLatch status qidx width exp reclen mant).rxContent = s.rxContent := rfl
@[simp] theorem State.sdLatch_rxFcsRx (status : SdStatus) (qidx : BitVec 4) (width exp reclen : Byte) (mant : Dword) :
    (s.sdLatch status qidx width exp reclen mant).rxFcsRx = s.rxFcsRx := rfl
@[simp] theorem State.sdLatch_rxFcsCalc (status : SdStatus) (qidx : BitVec 4) (width exp reclen : Byte) (mant : Dword) :
    (s.sdLatch status qidx width exp reclen mant).rxFcsCalc = s.rxFcsCalc := rfl
@[simp] theorem State.sdLatch_rxRd (status : SdStatus) (qidx : BitVec 4) (width exp reclen : Byte) (mant : Dword) :
    (s.sdLatch status qidx width exp reclen mant).rxRd = s.rxRd := rfl
@[simp] theorem State.sdLatch_cmdErr (status : SdStatus) (qidx : BitVec 4) (width exp reclen : Byte) (mant : Dword) :
    (s.sdLatch status qidx width exp reclen mant).cmdErr = s.cmdErr := rfl
@[simp] theorem State.sdLatch_sdTag (status : SdStatus) (qidx : BitVec 4) (width exp reclen : Byte) (mant : Dword) :
    (s.sdLatch status qidx width exp reclen mant).sdTag = s.sdTag := rfl
@[simp] theorem State.sdLatch_sdTs (status : SdStatus) (qidx : BitVec 4) (width exp reclen : Byte) (mant : Dword) :
    (s.sdLatch status qidx width exp reclen mant).sdTs = s.sdTs := rfl
@[simp] theorem State.sdLatch_sdValLo (status : SdStatus) (qidx : BitVec 4) (width exp reclen : Byte) (mant : Dword) :
    (s.sdLatch status qidx width exp reclen mant).sdValLo = s.sdValLo := rfl
@[simp] theorem State.sdLatch_sdValHi (status : SdStatus) (qidx : BitVec 4) (width exp reclen : Byte) (mant : Dword) :
    (s.sdLatch status qidx width exp reclen mant).sdValHi = s.sdValHi := rfl
@[simp] theorem State.sdLatch_sdStatus (status : SdStatus) (qidx : BitVec 4) (width exp reclen : Byte) (mant : Dword) :
    (s.sdLatch status qidx width exp reclen mant).sdStatus = status := rfl
@[simp] theorem State.sdLatch_sdQidx (status : SdStatus) (qidx : BitVec 4) (width exp reclen : Byte) (mant : Dword) :
    (s.sdLatch status qidx width exp reclen mant).sdQidx = qidx := rfl
@[simp] theorem State.sdLatch_sdWidth (status : SdStatus) (qidx : BitVec 4) (width exp reclen : Byte) (mant : Dword) :
    (s.sdLatch status qidx width exp reclen mant).sdWidth = width := rfl
@[simp] theorem State.sdLatch_sdExp (status : SdStatus) (qidx : BitVec 4) (width exp reclen : Byte) (mant : Dword) :
    (s.sdLatch status qidx width exp reclen mant).sdExp = exp := rfl
@[simp] theorem State.sdLatch_sdReclen (status : SdStatus) (qidx : BitVec 4) (width exp reclen : Byte) (mant : Dword) :
    (s.sdLatch status qidx width exp reclen mant).sdReclen = reclen := rfl
@[simp] theorem State.sdLatch_sdCode (status : SdStatus) (qidx : BitVec 4) (width exp reclen : Byte) (mant : Dword) :
    (s.sdLatch status qidx width exp reclen mant).sdCode = s.sdCode := rfl
@[simp] theorem State.sdLatch_sdMant (status : SdStatus) (qidx : BitVec 4) (width exp reclen : Byte) (mant : Dword) :
    (s.sdLatch status qidx width exp reclen mant).sdMant = mant := rfl
@[simp] theorem State.sdLatch_sdTstamp (status : SdStatus) (qidx : BitVec 4) (width exp reclen : Byte) (mant : Dword) :
    (s.sdLatch status qidx width exp reclen mant).sdTstamp = s.sdTstamp := rfl
@[simp] theorem State.sdLatch_rangeStart (status : SdStatus) (qidx : BitVec 4) (width exp reclen : Byte) (mant : Dword) :
    (s.sdLatch status qidx width exp reclen mant).rangeStart = s.rangeStart := rfl
@[simp] theorem State.sdLatch_rangeEnd (status : SdStatus) (qidx : BitVec 4) (width exp reclen : Byte) (mant : Dword) :
    (s.sdLatch status qidx width exp reclen mant).rangeEnd = s.rangeEnd := rfl
@[simp] theorem State.sdLatch_hostMoves (status : SdStatus) (qidx : BitVec 4) (width exp reclen : Byte) (mant : Dword) :
    (s.sdLatch status qidx width exp reclen mant).hostMoves = s.hostMoves := rfl
@[simp] theorem State.sdLatch_hostReads (status : SdStatus) (qidx : BitVec 4) (width exp reclen : Byte) (mant : Dword) :
    (s.sdLatch status qidx width exp reclen mant).hostReads = s.hostReads := rfl

/-! ### `resetBlock`: the host's lists stay, the rest is the reset state -/

@[simp] theorem resetBlock_txActive (P : Config.Params) : (resetBlock P s).txActive = (State.resetWith P).txActive := rfl
@[simp] theorem resetBlock_txq (P : Config.Params) : (resetBlock P s).txq = (State.resetWith P).txq := rfl
@[simp] theorem resetBlock_txAcc (P : Config.Params) : (resetBlock P s).txAcc = (State.resetWith P).txAcc := rfl
@[simp] theorem resetBlock_rxState (P : Config.Params) : (resetBlock P s).rxState = (State.resetWith P).rxState := rfl
@[simp] theorem resetBlock_rxBody (P : Config.Params) : (resetBlock P s).rxBody = (State.resetWith P).rxBody := rfl
@[simp] theorem resetBlock_rxDone (P : Config.Params) : (resetBlock P s).rxDone = (State.resetWith P).rxDone := rfl
@[simp] theorem resetBlock_rxResult (P : Config.Params) : (resetBlock P s).rxResult = (State.resetWith P).rxResult := rfl
@[simp] theorem resetBlock_rxCause (P : Config.Params) : (resetBlock P s).rxCause = (State.resetWith P).rxCause := rfl
@[simp] theorem resetBlock_rxContent (P : Config.Params) : (resetBlock P s).rxContent = (State.resetWith P).rxContent := rfl
@[simp] theorem resetBlock_rxFcsRx (P : Config.Params) : (resetBlock P s).rxFcsRx = (State.resetWith P).rxFcsRx := rfl
@[simp] theorem resetBlock_rxFcsCalc (P : Config.Params) : (resetBlock P s).rxFcsCalc = (State.resetWith P).rxFcsCalc := rfl
@[simp] theorem resetBlock_rxRd (P : Config.Params) : (resetBlock P s).rxRd = (State.resetWith P).rxRd := rfl
@[simp] theorem resetBlock_cmdErr (P : Config.Params) : (resetBlock P s).cmdErr = (State.resetWith P).cmdErr := rfl
@[simp] theorem resetBlock_sdTag (P : Config.Params) : (resetBlock P s).sdTag = (State.resetWith P).sdTag := rfl
@[simp] theorem resetBlock_sdTs (P : Config.Params) : (resetBlock P s).sdTs = (State.resetWith P).sdTs := rfl
@[simp] theorem resetBlock_sdValLo (P : Config.Params) : (resetBlock P s).sdValLo = (State.resetWith P).sdValLo := rfl
@[simp] theorem resetBlock_sdValHi (P : Config.Params) : (resetBlock P s).sdValHi = (State.resetWith P).sdValHi := rfl
@[simp] theorem resetBlock_sdStatus (P : Config.Params) : (resetBlock P s).sdStatus = (State.resetWith P).sdStatus := rfl
@[simp] theorem resetBlock_sdQidx (P : Config.Params) : (resetBlock P s).sdQidx = (State.resetWith P).sdQidx := rfl
@[simp] theorem resetBlock_sdWidth (P : Config.Params) : (resetBlock P s).sdWidth = (State.resetWith P).sdWidth := rfl
@[simp] theorem resetBlock_sdExp (P : Config.Params) : (resetBlock P s).sdExp = (State.resetWith P).sdExp := rfl
@[simp] theorem resetBlock_sdReclen (P : Config.Params) : (resetBlock P s).sdReclen = (State.resetWith P).sdReclen := rfl
@[simp] theorem resetBlock_sdCode (P : Config.Params) : (resetBlock P s).sdCode = (State.resetWith P).sdCode := rfl
@[simp] theorem resetBlock_sdMant (P : Config.Params) : (resetBlock P s).sdMant = (State.resetWith P).sdMant := rfl
@[simp] theorem resetBlock_sdTstamp (P : Config.Params) : (resetBlock P s).sdTstamp = (State.resetWith P).sdTstamp := rfl
@[simp] theorem resetBlock_rangeStart (P : Config.Params) : (resetBlock P s).rangeStart = (State.resetWith P).rangeStart := rfl
@[simp] theorem resetBlock_rangeEnd (P : Config.Params) : (resetBlock P s).rangeEnd = (State.resetWith P).rangeEnd := rfl
@[simp] theorem resetBlock_hostMoves (P : Config.Params) : (resetBlock P s).hostMoves = s.hostMoves := rfl
@[simp] theorem resetBlock_hostReads (P : Config.Params) : (resetBlock P s).hostReads = s.hostReads := rfl

end Sys2Proof.Machine
end

