-- ==== Sys2Proof/Laws/RxDeframer.lean ====
section
/-! SUPPORT. What the operations of the RX deframer can answer: one lemma each. -/

namespace Sys2Proof.Machine

open Sys2Proof.Config (Params)

theorem rxAppend_of_room {P : Params} {s : State} (v : Byte) (h : s.rxBody.length ≠ P.rxMaxBody) :
    rxAppend P v s = { s with rxBody := s.rxBody ++ [v] } := if_neg h

theorem rxAppend_of_full {P : Params} {s : State} (v : Byte) (h : s.rxBody.length = P.rxMaxBody) :
    rxAppend P v s = { s.latch .framingError .overflow [] 0 0 with rxState := .hunt } := if_pos h

/-- A body of at least two bytes is its content and the checksum it ends with. -/
theorem bodyContent_append (c : List Byte) (lo hi : Byte) : bodyContent (c ++ [lo, hi]) = c := by
  simp [bodyContent]

theorem bodyFcs_append (c : List Byte) (lo hi : Byte) : bodyFcs (c ++ [lo, hi]) = le16 lo hi := by
  simp [bodyFcs]

/-- A list of at least two bytes ends with two bytes. -/
theorem exists_append_two {l : List Byte} (h : 2 ≤ l.length) : ∃ c lo hi, l = c ++ [lo, hi] := by
  refine ⟨l.take (l.length - 2), l[l.length - 2], l[l.length - 1], ?_⟩
  conv_lhs => rw [← List.take_append_drop (l.length - 2) l]
  congr 1
  apply List.ext_getElem
  · simp; omega
  · intro i h1 h2
    simp only [List.length_cons, List.length_nil] at h2
    rw [List.getElem_drop]
    match i with
    | 0 => simp
    | 1 => simp only [List.getElem_cons_succ, List.getElem_cons_zero]; congr 1; omega

/-- Everything VERIFY can do with the body of content `c` and received checksum `(lo, hi)`. -/
theorem rxVerify_append {P : Params} {s : State} {c : List Byte} {lo hi : Byte} (h : s.rxBody = c ++ [lo, hi]) :
    rxVerify P s = if le16 lo hi = fcs16 P c then s.latch .ok .none c (le16 lo hi) (fcs16 P c)
      else s.latch .checksumMismatch .none [] (le16 lo hi) (fcs16 P c) := by
  simp only [rxVerify, h, bodyContent_append, bodyFcs_append]

/-- Everything CLOSE can do. -/
theorem rxClose_cases (P : Params) (s : State) :
    (s.rxBody = [] ∧ rxClose P s = s) ∨
    ((∃ b, s.rxBody = [b]) ∧ rxClose P s = s.latch .framingError .shortBody [] 0 0) ∨
    (∃ c lo hi, s.rxBody = c ++ [lo, hi] ∧ le16 lo hi = fcs16 P c ∧
      rxClose P s = s.latch .ok .none c (le16 lo hi) (fcs16 P c)) ∨
    (∃ c lo hi, s.rxBody = c ++ [lo, hi] ∧ le16 lo hi ≠ fcs16 P c ∧
      rxClose P s = s.latch .checksumMismatch .none [] (le16 lo hi) (fcs16 P c)) := by
  unfold rxClose
  split
  · exact .inl ⟨List.eq_nil_of_length_eq_zero ‹_›, rfl⟩
  · split
    · exact .inr (.inl ⟨List.length_eq_one_iff.1 ‹_›, rfl⟩)
    · obtain ⟨c, lo, hi, h⟩ := exists_append_two (l := s.rxBody) (by omega)
      rw [rxVerify_append h]
      split
      · exact .inr (.inr (.inl ⟨c, lo, hi, h, ‹_›, rfl⟩))
      · exact .inr (.inr (.inr ⟨c, lo, hi, h, ‹_›, rfl⟩))

/-- Everything one consumed wire byte can do: nothing but the state and the body, or one latched outcome. -/
theorem rxConsume_cases (P : Params) (w : Byte) (s : State) :
    (s.rxState = .hunt ∧ w = delim ∧ rxConsume P w s = { s with rxState := .opened, rxBody := [] }) ∨
    (s.rxState = .hunt ∧ w ≠ delim ∧ rxConsume P w s = s) ∨
    (s.rxState = .opened ∧ w = delim ∧ rxConsume P w s = rxClose P s) ∨
    (s.rxState = .opened ∧ w = escb ∧ rxConsume P w s = { s with rxState := .esc }) ∨
    (s.rxState = .esc ∧ w = delim ∧
      rxConsume P w s = { s.latch .framingError .danglingEsc [] 0 0 with rxState := .opened }) ∨
    (s.rxState ≠ .hunt ∧ w ≠ delim ∧ s.rxBody.length ≠ P.rxMaxBody ∧
      ∃ v, rxConsume P w s = { s with rxState := .opened, rxBody := s.rxBody ++ [v] }) ∨
    (s.rxState ≠ .hunt ∧ w ≠ delim ∧ s.rxBody.length = P.rxMaxBody ∧
      rxConsume P w s = { s.latch .framingError .overflow [] 0 0 with rxState := .hunt }) := by
  unfold rxConsume
  cases hs : s.rxState with
  | hunt =>
    by_cases hw : w = delim
    · exact .inl ⟨rfl, hw, if_pos hw⟩
    · exact .inr (.inl ⟨rfl, hw, if_neg hw⟩)
  | opened =>
    dsimp only
    by_cases hw : w = delim
    · exact .inr (.inr (.inl ⟨rfl, hw, if_pos hw⟩))
    · by_cases he : w = escb
      · exact .inr (.inr (.inr (.inl ⟨rfl, he, by rw [if_neg hw, if_pos he]⟩)))
      · rw [if_neg hw, if_neg he]
        by_cases hl : s.rxBody.length = P.rxMaxBody
        · exact .inr (.inr (.inr (.inr (.inr (.inr ⟨by simp, hw, hl, rxAppend_of_full w hl⟩)))))
        · refine .inr (.inr (.inr (.inr (.inr (.inl ⟨by simp, hw, hl, w, ?_⟩)))))
          rw [rxAppend_of_room w hl, ← hs]
  | esc =>
    dsimp only
    by_cases hw : w = delim
    · exact .inr (.inr (.inr (.inr (.inl ⟨rfl, hw, if_pos hw⟩))))
    · rw [if_neg hw]
      by_cases hl : s.rxBody.length = P.rxMaxBody
      · exact .inr (.inr (.inr (.inr (.inr (.inr ⟨by simp, hw, hl,
          rxAppend_of_full (s := { s with rxState := .opened }) _ hl⟩)))))
      · exact .inr (.inr (.inr (.inr (.inr (.inl ⟨by simp, hw, hl, w ^^^ xmask,
          rxAppend_of_room (s := { s with rxState := .opened }) _ hl⟩)))))

theorem rxByte_of_done {P : Params} {s : State} (w : Byte) (h : s.rxDone = true) :
    rxByte P w s = s.failWith .rxBusy := if_pos h

theorem rxByte_of_idle {P : Params} {s : State} (w : Byte) (h : s.rxDone = false) :
    rxByte P w s = (rxConsume P w s).succeed := if_neg (by simp [h])

/-- RX_BYTE leaves everything that is not the deframer's alone, but for `cmd_err`. -/
theorem rxByte_frame (P : Params) (w : Byte) (s : State) :
    (rxByte P w s).sameTx s ∧ (rxByte P w s).sameSdOutputs s ∧ (rxByte P w s).sameInputs s ∧
    (rxByte P w s).hostMoves = s.hostMoves ∧ (rxByte P w s).hostReads = s.hostReads := by
  cases hd : s.rxDone with
  | true => rw [rxByte_of_done w hd]; simp [State.sameTx, State.sameSdOutputs, State.sameInputs]
  | false =>
    rw [rxByte_of_idle w hd]
    rcases rxConsume_cases P w s with ⟨-, -, h⟩ | ⟨-, -, h⟩ | ⟨-, -, h⟩ | ⟨-, -, h⟩ | ⟨-, -, h⟩ | ⟨-, -, -, v, h⟩ |
      ⟨-, -, -, h⟩ <;> rw [h]
    case inr.inr.inl =>
      rcases rxClose_cases P s with ⟨-, h⟩ | ⟨-, h⟩ | ⟨c, lo, hi, -, -, h⟩ | ⟨c, lo, hi, -, -, h⟩ <;> rw [h] <;>
        simp [State.sameTx, State.sameSdOutputs, State.sameInputs]
    all_goals simp [State.sameTx, State.sameSdOutputs, State.sameInputs]

/-- Everything RX_ACK can do. -/
theorem rxAck_cases (s : State) :
    (s.rxDone = false ∧ rxAck s = s.failWith .rxState) ∨ (s.rxDone = true ∧ rxAck s = s.unlatch.succeed) := by
  unfold rxAck
  cases h : s.rxDone with
  | false => exact .inl ⟨rfl, rfl⟩
  | true => exact .inr ⟨rfl, rfl⟩

/-- A content byte is returned exactly when an OK outcome is latched and the pointer is inside its content. -/
theorem nextContent_eq_some {s : State} {b : Byte} :
    s.nextContent = some b ↔ s.rxDone = true ∧ s.rxResult = .ok ∧ s.rxContent[s.rxRd]? = some b := by
  unfold State.nextContent
  split
  · rename_i h; simp [h]
  · rename_i h
    constructor
    · intro h'; cases h'
    · rintro ⟨h1, h2, -⟩; exact absurd ⟨h1, h2⟩ h

/-- Everything the read of RX_DATA can do. -/
theorem readRxData_cases (s : State) :
    (s.nextContent = none ∧ readRxData s = s.returnRead noByte) ∨
    (∃ b, s.nextContent = some b ∧ readRxData s = State.returnRead { s with rxRd := s.rxRd + 1 } (validByte b)) := by
  unfold readRxData
  cases h : s.nextContent with
  | none => exact .inl ⟨rfl, rfl⟩
  | some b => exact .inr ⟨b, rfl, rfl⟩

/-- A latched outcome of the block is an outcome of the buffer-level decode. -/
theorem latchedOutcome_of_idle {s : State} (h : s.rxDone = false) : latchedOutcome s = none := by
  simp [latchedOutcome, h]

theorem latchedOutcome_of_ok {s : State} (h : s.rxDone = true) (h' : s.rxResult = .ok) :
    latchedOutcome s = some (.ok s.rxContent) := by simp [latchedOutcome, h, h']

@[simp] theorem feed_nil (P : Params) (s : State) : feed P [] s = s := rfl

@[simp] theorem feed_cons (P : Params) (w : Byte) (ws : List Byte) (s : State) :
    feed P (w :: ws) s = feed P ws (rxByte P w s) := rfl

theorem feed_append (P : Params) (ws vs : List Byte) (s : State) : feed P (ws ++ vs) s = feed P vs (feed P ws s) := by
  simp [feed]

end Sys2Proof.Machine
end

