-- ==== Sys2Proof/Laws/ScalarDecoder.lean ====
section
/-! SUPPORT. What SD_DECODE can answer, and how a code is recognised. -/

namespace Sys2Proof.Machine

open Sys2Proof.Config (Params)

/-- Everything SD_DECODE can do. -/
theorem sdDecode_cases (P : Params) (s : State) :
    (∃ q, recognise P (tagCode s.sdTag) = some q ∧
      sdDecode P s = { s with
        sdCode := tagCode s.sdTag, sdTstamp := s.sdTs, sdStatus := .recognized, sdQidx := q.index, sdWidth := q.width,
        sdExp := BitVec.ofInt 8 q.exp, sdReclen := 8 + q.width, sdMant := rawValue P q s, cmdErr := .ok }) ∨
    (recognise P (tagCode s.sdTag) = none ∧ ∃ w, shapeWidth P (tagShape s.sdTag) = some w ∧ (w = 8 ∨ w = 4) ∧
      sdDecode P s = { s with
        sdCode := tagCode s.sdTag, sdTstamp := s.sdTs, sdStatus := .skip, sdQidx := 0, sdWidth := w, sdExp := 0,
        sdReclen := 8 + w, sdMant := 0, cmdErr := .ok }) ∨
    (recognise P (tagCode s.sdTag) = none ∧ shapeWidth P (tagShape s.sdTag) = none ∧
      sdDecode P s = { s with
        sdCode := tagCode s.sdTag, sdTstamp := s.sdTs, sdStatus := .shapeError, sdQidx := 0, sdWidth := 0, sdExp := 0,
        sdReclen := 0, sdMant := 0, cmdErr := .ok }) := by
  cases hr : recognise P (tagCode s.sdTag) with
  | some q => exact .inl ⟨q, rfl, by simp only [sdDecode, hr]; rfl⟩
  | none =>
    cases hw : shapeWidth P (tagShape s.sdTag) with
    | some w =>
      refine .inr (.inl ⟨rfl, w, rfl, ?_, by simp only [sdDecode, hr, hw]; rfl⟩)
      unfold shapeWidth at hw
      split at hw
      · cases hw; exact .inl rfl
      · split at hw
        · cases hw; exact .inr rfl
        · cases hw
    | none => exact .inr (.inr ⟨rfl, rfl, by simp only [sdDecode, hr, hw]; rfl⟩)

/-- The row a code is recognised as holds that code. -/
theorem code_of_recognise {P : Params} {code : Code} {q : Quantity} (h : recognise P code = some q) :
    q.code P = code := by simpa using List.find?_some h

/-- A code that is not recognised is the code of no row. -/
theorem recognise_eq_none {P : Params} {code : Code} : recognise P code = none ↔ ∀ q : Quantity, q.code P ≠ code := by
  unfold recognise
  rw [List.find?_eq_none]
  constructor
  · intro h q
    have := h q (by cases q <;> decide)
    simpa using this
  · intro h q _
    simpa using h q

/-- The four shape values are distinct (00_scope.md R7). -/
theorem shapeInt_ne_shapeLong (P : Params) : P.shapeInt ≠ P.shapeLong := by
  intro h
  have h' := P.shapes.injective h
  exact absurd h' (by decide)

end Sys2Proof.Machine
end

