-- ==== Sys2Proof/Laws/TxFramer.lean ====
section
/-! SUPPORT. What the operations of the TX framer can answer: one lemma each. -/

namespace Sys2Proof.Machine

open Sys2Proof.Config (Params)

/-- The room check as a sum; its two forms agree because no command pushes nothing. -/
theorem roomOk_iff {P : Params} {s : State} {out : List Byte} (h : out ≠ []) :
    roomOk P s out = true ↔ s.txq.length + out.length ≤ P.txqDepth := by
  have : 0 < out.length := List.length_pos_of_ne_nil h
  simp only [roomOk, decide_eq_true_eq]
  omega

theorem roomOk_eq_false_iff {P : Params} {s : State} {out : List Byte} (h : out ≠ []) :
    roomOk P s out = false ↔ P.txqDepth < s.txq.length + out.length := by
  rw [Bool.eq_false_iff, ne_eq, roomOk_iff h, not_le]

theorem escs_ne_nil {l : List Byte} (h : l ≠ []) : escs l ≠ [] := by
  have := escs_length l
  have h' := List.length_pos_of_ne_nil h
  exact List.ne_nil_of_length_pos (by omega)

/-- Everything TX_START can do. -/
theorem txStart_cases (P : Params) (s : State) :
    (s.txActive = true ∧ txStart P s = s.failWith .txState) ∨
    (s.txActive = false ∧ P.txqDepth < s.txq.length + 1 ∧ txStart P s = s.failWith .txFull) ∨
    (s.txActive = false ∧ s.txq.length + 1 ≤ P.txqDepth ∧
      txStart P s = { s with txq := s.txq ++ [delim], txAcc := P.fcsInit, txActive := true, cmdErr := .ok }) := by
  unfold txStart
  split
  · exact .inl ⟨‹_›, rfl⟩
  · rename_i ha
    split
    · rename_i hr
      exact .inr (.inl ⟨by simpa using ha, (roomOk_eq_false_iff (List.cons_ne_nil _ _)).1 hr, rfl⟩)
    · rename_i hr
      exact .inr (.inr ⟨by simpa using ha, (roomOk_iff (List.cons_ne_nil _ _)).1 (by simpa using hr), rfl⟩)

/-- Everything TX_BYTE and TX_RANGE can do with content bytes. -/
theorem txContent_cases (P : Params) {bs : List Byte} (hb : bs ≠ []) (s : State) :
    (s.txActive = false ∧ txContent P bs s = s.failWith .txState) ∨
    (s.txActive = true ∧ P.txqDepth < s.txq.length + (escs bs).length ∧ txContent P bs s = s.failWith .txFull) ∨
    (s.txActive = true ∧ s.txq.length + (escs bs).length ≤ P.txqDepth ∧
      txContent P bs s = { s with txq := s.txq ++ escs bs, txAcc := fcsFold P s.txAcc bs, cmdErr := .ok }) := by
  unfold txContent
  split
  · exact .inl ⟨‹_›, rfl⟩
  · rename_i ha
    split
    · rename_i hr
      exact .inr (.inl ⟨by simpa using ha, (roomOk_eq_false_iff (escs_ne_nil hb)).1 hr, rfl⟩)
    · rename_i hr
      exact .inr (.inr ⟨by simpa using ha, (roomOk_iff (escs_ne_nil hb)).1 (by simpa using hr), rfl⟩)

theorem txTrailer_ne_nil (P : Params) (s : State) : txTrailer P s ≠ [] := by simp [txTrailer]

/-- TX_END pushes three to five bytes. -/
theorem txTrailer_length (P : Params) (s : State) : 3 ≤ (txTrailer P s).length ∧ (txTrailer P s).length ≤ 5 := by
  have := escs_length (fcsBytes (P.fcsFin s.txAcc))
  simp only [fcsBytes, List.length_cons, List.length_nil] at this
  simp only [txTrailer, List.length_append, fcsBytes, List.length_cons, List.length_nil]
  omega

/-- Everything TX_END can do. -/
theorem txEnd_cases (P : Params) (s : State) :
    (s.txActive = false ∧ txEnd P s = s.failWith .txState) ∨
    (s.txActive = true ∧ P.txqDepth < s.txq.length + (txTrailer P s).length ∧ txEnd P s = s.failWith .txFull) ∨
    (s.txActive = true ∧ s.txq.length + (txTrailer P s).length ≤ P.txqDepth ∧
      txEnd P s = { s with txq := s.txq ++ txTrailer P s, txActive := false, cmdErr := .ok }) := by
  unfold txEnd
  split
  · exact .inl ⟨‹_›, rfl⟩
  · rename_i ha
    split
    · rename_i hr
      exact .inr (.inl ⟨by simpa using ha, (roomOk_eq_false_iff (txTrailer_ne_nil P s)).1 hr, rfl⟩)
    · rename_i hr
      exact .inr (.inr ⟨by simpa using ha, (roomOk_iff (txTrailer_ne_nil P s)).1 (by simpa using hr), rfl⟩)

/-- Everything the read of TX_DATA can do. -/
theorem readTxData_cases (s : State) :
    (s.txq = [] ∧ readTxData s = s.returnRead noByte) ∨
    (∃ b rest, s.txq = b :: rest ∧ readTxData s = State.returnRead { s with txq := rest } (validByte b)) := by
  unfold readTxData State.popTx
  cases h : s.txq with
  | nil => exact .inl ⟨rfl, rfl⟩
  | cons b rest => exact .inr ⟨b, rest, rfl, rfl⟩

/-- The room a whole TX command could need: TX_RANGE pushes at most sixteen bytes. -/
theorem rangeBytes_length (s : State) : (rangeBytes s).length = 8 := rfl

theorem rangeBytes_ne_nil (s : State) : rangeBytes s ≠ [] := by simp [rangeBytes, bytesLE32]

end Sys2Proof.Machine
end

