-- ==== Sys2Proof/Laws/Exec.lean ====
section
/-! SUPPORT. What `exec`, `step` and a run of instructions can answer. -/

namespace Sys2Proof.Machine

/-- Every instruction answers a next state: no error of the block stops it (60_exceptions.md R206). -/
theorem exec_next (i : Instr) (s : State) : ∃ t, exec i s = .next t := by cases i <;> exact ⟨_, rfl⟩

/-- Everything a step can do. -/
theorem step_cases (s : State) :
    (s.hostMoves = [] ∧ step s = .next s) ∨
    (∃ rest, s.hostMoves = .reset :: rest ∧ step s = .next (resetBlock Config.params { s with hostMoves := rest })) ∨
    (∃ a rest i, s.hostMoves = .access a :: rest ∧ decode a = .instr i ∧
      step s = exec i { s with hostMoves := rest }) ∨
    (∃ a rest why, s.hostMoves = .access a :: rest ∧ decode a = .illegal why ∧
      step s = .next (State.failWith { s with hostMoves := rest } .illegal)) ∨
    (∃ a rest why, s.hostMoves = .access a :: rest ∧ decode a = .busError why ∧
      step s = .fault (.busError why)) := by
  unfold step nextMove
  cases hm : s.hostMoves with
  | nil => exact .inl ⟨rfl, rfl⟩
  | cons m rest =>
    cases m with
    | reset => exact .inr (.inl ⟨rest, rfl, rfl⟩)
    | access a =>
      cases hd : decode a with
      | instr i => exact .inr (.inr (.inl ⟨a, rest, i, rfl, hd, by simp [hd]⟩))
      | illegal why => exact .inr (.inr (.inr (.inl ⟨a, rest, why, rfl, hd, by simp [hd]⟩)))
      | busError why => exact .inr (.inr (.inr (.inr ⟨a, rest, why, rfl, hd, by simp [hd]⟩)))

@[simp] theorem runInstrs_nil (s : State) : runInstrs [] s = .next s := rfl

theorem runInstrs_cons {i : Instr} {s t : State} (is : List Instr) (h : exec i s = .next t) :
    runInstrs (i :: is) s = runInstrs is t := by simp [runInstrs, h]

/-- A run of two lists is the run of the second after the first. -/
theorem runInstrs_append {is js : List Instr} {s t : State} (h : runInstrs is s = .next t) :
    runInstrs (is ++ js) s = runInstrs js t := by
  induction is generalizing s with
  | nil => cases h; rfl
  | cons i is ih =>
    obtain ⟨u, hu⟩ := exec_next i s
    rw [runInstrs_cons _ hu] at h
    rw [List.cons_append, runInstrs_cons _ hu]
    exact ih h

/-- Feeding bytes is RX_BYTE of each in order. -/
theorem runInstrs_rxFeed (ws : List Byte) (s : State) :
    runInstrs (rxFeed ws) s = .next (feed Config.params ws s) := by
  induction ws generalizing s with
  | nil => rfl
  | cons w ws ih =>
    rw [feed_cons, ← ih]
    exact runInstrs_cons _ rfl

/-- The host's read loop goes on after a byte. -/
@[simp] theorem lastReadValid_validByte (s : State) (b : Byte) :
    lastReadValid (s.returnRead (validByte b)) = true := by
  simpa [lastReadValid] using validByte_valid b

/-- The host's read loop stops when nothing is returned. -/
@[simp] theorem lastReadValid_noByte (s : State) : lastReadValid (s.returnRead noByte) = false := by
  simpa [lastReadValid] using noByte_valid

/-- A command returns no value to the host. -/
theorem exec_command_hostReads {i : Instr} {s t : State} (h : exec i s = .next t) (hc : i.isCommand = true) :
    t.hostReads = s.hostReads := by
  cases i <;> simp [Instr.isCommand] at hc <;> cases h
  case txStart => simp only [txStart]; repeat' split
                  all_goals rfl
  case txEnd => simp only [txEnd]; repeat' split
                all_goals rfl
  case rxByte w =>
    simp only [rxByte, rxConsume, rxClose, rxVerify, rxAppend]
    repeat' split
    all_goals rfl
  case rxAck => simp only [rxAck]; split <;> rfl
  case sdDecode => simp only [sdDecode]; repeat' split
                   all_goals rfl
  case nop => rfl
  case sreset => rfl
  all_goals simp only [txContent]; repeat' split
  all_goals rfl

/-- A byte the payload has is packed as it stands. -/
theorem payloadByte_of_lt {p : List Byte} {i : Nat} (h : i < p.length) : payloadByte p i = p[i] := by
  simp [payloadByte, h]

end Sys2Proof.Machine
end

