-- ==== Sys2Proof/Laws/HostMoves.lean ====
section
/-! SUPPORT. The host's list of moves: no instruction reads or changes it; one step of a run. -/

namespace Sys2Proof.Machine

/-- The state with another list of moves of the host. -/
def State.withMoves (m : List HostMove) (s : State) : State := { s with hostMoves := m }

@[simp] theorem State.withMoves_txActive (m : List HostMove) (s : State) : (State.withMoves m s).txActive = s.txActive := rfl
@[simp] theorem State.withMoves_txq (m : List HostMove) (s : State) : (State.withMoves m s).txq = s.txq := rfl
@[simp] theorem State.withMoves_rxState (m : List HostMove) (s : State) : (State.withMoves m s).rxState = s.rxState := rfl
@[simp] theorem State.withMoves_rxBody (m : List HostMove) (s : State) : (State.withMoves m s).rxBody = s.rxBody := rfl
@[simp] theorem State.withMoves_rxDone (m : List HostMove) (s : State) : (State.withMoves m s).rxDone = s.rxDone := rfl
@[simp] theorem State.withMoves_sdTag (m : List HostMove) (s : State) : (State.withMoves m s).sdTag = s.sdTag := rfl
theorem roomOk_withMoves (m : List HostMove) (s : State) (l : List Byte) : roomOk Config.params (State.withMoves m s) l = roomOk Config.params s l := rfl
theorem txTrailer_withMoves (m : List HostMove) (s : State) : txTrailer Config.params (State.withMoves m s) = txTrailer Config.params s := rfl

/-- No instruction reads or changes the host's moves. -/
theorem exec_withMoves (i : Instr) (s : State) (m : List HostMove) :
  ∃ t, exec i s = .next t ∧ exec i (State.withMoves m s) = .next (State.withMoves m t) ∧ t.hostMoves = s.hostMoves := by
  cases i
  case txStart =>
    refine ⟨_, rfl, congrArg Host.Outcome.next ?_, ?_⟩
    · show txStart Config.params (State.withMoves m s) = State.withMoves m (txStart Config.params s)
      simp only [txStart, roomOk_withMoves, State.withMoves_txActive]; rw [apply_ite (State.withMoves m), apply_ite (State.withMoves m)]; rfl
    · rcases txStart_cases Config.params s with ⟨h1, h⟩ | ⟨h1, h2, h⟩ | ⟨h1, h2, h⟩ <;> rw [h] <;> rfl
  case txByte b =>
    refine ⟨_, rfl, congrArg Host.Outcome.next ?_, ?_⟩
    · show txContent Config.params [b] (State.withMoves m s) = State.withMoves m (txContent Config.params [b] s)
      simp only [txContent, roomOk_withMoves, State.withMoves_txActive]; rw [apply_ite (State.withMoves m), apply_ite (State.withMoves m)]; rfl
    · rcases txContent_cases Config.params (List.cons_ne_nil b []) s with ⟨h1, h⟩ | ⟨h1, h2, h⟩ | ⟨h1, h2, h⟩ <;> rw [h] <;> rfl
  case txRange =>
    refine ⟨_, rfl, congrArg Host.Outcome.next ?_, ?_⟩
    · show txContent Config.params (rangeBytes s) (State.withMoves m s) = State.withMoves m (txContent Config.params (rangeBytes s) s)
      simp only [txContent, roomOk_withMoves, State.withMoves_txActive]; rw [apply_ite (State.withMoves m), apply_ite (State.withMoves m)]; rfl
    · rcases txContent_cases Config.params (rangeBytes_ne_nil s) s with ⟨h1, h⟩ | ⟨h1, h2, h⟩ | ⟨h1, h2, h⟩ <;> rw [h] <;> rfl
  case txEnd =>
    refine ⟨_, rfl, congrArg Host.Outcome.next ?_, ?_⟩
    · show txEnd Config.params (State.withMoves m s) = State.withMoves m (txEnd Config.params s)
      simp only [txEnd, roomOk_withMoves, txTrailer_withMoves, State.withMoves_txActive]; rw [apply_ite (State.withMoves m), apply_ite (State.withMoves m)]; rfl
    · rcases txEnd_cases Config.params s with ⟨h1, h⟩ | ⟨h1, h2, h⟩ | ⟨h1, h2, h⟩ <;> rw [h] <;> rfl
  case rxByte w =>
    refine ⟨_, rfl, congrArg Host.Outcome.next ?_, (rxByte_frame _ _ _).2.2.2.1⟩
    cases hd : s.rxDone with
    | true => rw [rxByte_of_done _ hd, rxByte_of_done _ (by simpa using hd)]; rfl
    | false =>
      rw [rxByte_of_idle _ hd, rxByte_of_idle _ (by simpa using hd)]
      have : rxConsume Config.params w (State.withMoves m s) = State.withMoves m (rxConsume Config.params w s) := by
        simp only [rxConsume, State.withMoves_rxState]
        have hc : rxClose Config.params (State.withMoves m s) = State.withMoves m (rxClose Config.params s) := by
          simp only [rxClose, rxVerify, State.withMoves_rxBody]; rw [apply_ite (State.withMoves m), apply_ite (State.withMoves m), apply_ite (State.withMoves m)]; rfl
        have ha : ∀ v, rxAppend Config.params v (State.withMoves m s) = State.withMoves m (rxAppend Config.params v s) := by
          intro v; simp only [rxAppend, State.withMoves_rxBody]; rw [apply_ite (State.withMoves m)]; rfl
        have hb : ∀ v, rxAppend Config.params v { State.withMoves m s with rxState := .opened } = State.withMoves m (rxAppend Config.params v { s with rxState := .opened }) := by
          intro v; simp only [rxAppend, State.withMoves_rxBody]; rw [apply_ite (State.withMoves m)]; rfl
        cases h : s.rxState <;> dsimp only
        · rw [apply_ite (State.withMoves m)]; rfl
        · rw [apply_ite (State.withMoves m), apply_ite (State.withMoves m), hc, ha]; rfl
        · rw [apply_ite (State.withMoves m), hb]; rfl
      rw [this]; rfl
  case rxAck =>
    refine ⟨_, rfl, congrArg Host.Outcome.next ?_, ?_⟩
    · simp only [rxAck, State.withMoves_rxDone]; rw [apply_ite (State.withMoves m)]; rfl
    · rcases rxAck_cases s with ⟨h1, h⟩ | ⟨h1, h⟩ <;> rw [h] <;> rfl
  case rdTxData =>
    refine ⟨_, rfl, congrArg Host.Outcome.next ?_, ?_⟩
    · simp only [readTxData, State.popTx, State.withMoves_txq]; cases s.txq <;> rfl
    · rcases readTxData_cases s with ⟨h1, h⟩ | ⟨b, r, h1, h⟩ <;> rw [h] <;> rfl
  case rdRxData =>
    refine ⟨_, rfl, congrArg Host.Outcome.next ?_, ?_⟩
    · have : State.nextContent (State.withMoves m s) = s.nextContent := rfl
      simp only [readRxData, this]; cases s.nextContent <;> rfl
    · rcases readRxData_cases s with ⟨h1, h⟩ | ⟨b, h1, h⟩ <;> rw [h] <;> rfl
  case sdDecode =>
    refine ⟨_, rfl, congrArg Host.Outcome.next ?_, ?_⟩
    · have : ∀ q, rawValue Config.params q (State.withMoves m s) = rawValue Config.params q s := fun _ => rfl
      simp only [sdDecode, this, State.withMoves_sdTag]; cases recognise Config.params (tagCode s.sdTag) <;> [(cases shapeWidth Config.params (tagShape s.sdTag) <;> rfl); rfl]
    · rcases sdDecode_cases Config.params s with ⟨q, h1, h⟩ | ⟨h1, w, h2, h3, h⟩ | ⟨h1, h2, h⟩ <;> rw [h]
  all_goals exact ⟨_, rfl, rfl, rfl⟩

/-- The same without `State.withMoves`. -/
theorem exec_hostMoves (i : Instr) (s : State) (m : List HostMove) :
    ∃ t, exec i s = .next t ∧ exec i { s with hostMoves := m } = .next { t with hostMoves := m } ∧
      t.hostMoves = s.hostMoves := exec_withMoves i s m

/-- A run's first step. -/
theorem core_run_succ {s t : State} (h : step s = .next t) (n : Nat) :
    Host.Core.run Sys2Proof.core (n + 1) s = Host.Core.run Sys2Proof.core n t := by
  have h' : Sys2Proof.core.step s = .next t := h
  simp only [Host.Core.run]
  rw [h']

end Sys2Proof.Machine
end

