-- ==== Sys2Proof/Laws/Invariant.lean ====
section
/-! SUPPORT. The invariants of Safety.lean under an update of other elements, and under a LATCH. -/

namespace Sys2Proof.Machine

/-- The deframer's invariant is about its own elements only. -/
theorem rxInv_congr {P : Config.Params} {s t : State} (h : RxInv P s) (e : t.sameRx s) : RxInv P t := by
  obtain ⟨h1, h2, h3, h4, h5, h6, h7, h8, h9⟩ := e
  cases s; cases t; simp only at *; subst h1 h2 h3 h4 h5 h6 h7 h8 h9
  exact ⟨h.1, h.2, h.3, h.4, h.5, h.6, h.7, h.8, h.9, h.10, h.11⟩

/-- The scalar decoder's invariant is about its outputs only. -/
theorem sdInv_congr {P : Config.Params} {s t : State} (h : SdInv P s) (e : t.sameSdOutputs s) : SdInv P t := by
  obtain ⟨h1, h2, h3, h4, h5, h6, h7, h8⟩ := e
  cases s; cases t; simp only at *; subst h1 h2 h3 h4 h5 h6 h7 h8
  exact ⟨h.1, h.2, h.3, h.4⟩

/-- The TX invariant is about the TX elements only. -/
theorem txInv_congr {P : Config.Params} {s t : State} (h : TxInv P s) (e : t.sameTx s) : TxInv P t := by
  obtain ⟨h1, h2, h3⟩ := e; exact ⟨by rw [h2]; exact h.1⟩

/-- A LATCH with an outcome of the spec's kinds meets the deframer's invariant. -/
theorem rxInv_latch {P : Config.Params} {s : State} {k c content a b} (hs : s.rxState = if c = RxCause.overflow then .hunt else .opened)
   (hk : k ≠ .none) (hck : c ≠ .none ↔ k = .framingError) (hok : k = .ok → a = b ∧ b = fcs16 P content ∧ content.length + 2 ≤ P.rxMaxBody)
   (hm : k = .checksumMismatch → a ≠ b) (hf : k = .framingError → a = 0 ∧ b = 0) (hc : k ≠ .ok → content = []) :
   RxInv P (s.latch k c content a b) := by
  constructor <;> simp only [State.latch_rxDone, State.latch_rxBody, State.latch_rxResult, State.latch_rxCause, State.latch_rxContent, State.latch_rxFcsRx, State.latch_rxFcsCalc, State.latch_rxRd, State.latch_rxState, hs, hck] <;> try simp [hk]
  all_goals first | rfl | exact hs | exact hok | exact hm | exact hf | exact hc

end Sys2Proof.Machine
end

