-- ==== Sys2Proof/Laws/PerInstr.lean ====
section
/-! SUPPORT. Statements made per instruction: one lemma for each constructor of Instr. -/

namespace Sys2Proof.Laws.EncodeFits

/-- The access an instruction is encoded as is well formed: it raises no bus error and, as a write to CMD, carries
a legal word (20_memory.md R61, 30_encoding.md R84). -/
def Statement (i : Instr) : Prop := (encode i).wellFormed = true

/-- A CMD word of an assigned opcode, with no ARG byte unless the opcode takes one, is legal. -/
theorem cmdAccess_wellFormed (opc arg : Byte) (h : opc ∈ assignedOpcodes) (ha : arg = 0 ∨ opc ∈ [(0x02 : Byte), 0x10]) :
    (cmdAccess opc arg).wellFormed = true := by
  have h1 : (cmdWord opc arg).extractLsb' 16 16 = 0 := rsvOf_cmdWord opc arg
  have h2 : (cmdWord opc arg).extractLsb' 0 8 = opc := opcOf_cmdWord opc arg
  have h3 : (cmdWord opc arg).extractLsb' 8 8 = arg := argOf_cmdWord opc arg
  simp only [cmdAccess, Access.wellFormed, cmdWordWellFormed, h1, h2, h3]
  simpa [writableOffsets] using And.intro h ha

theorem nop : Statement .nop := cmdAccess_wellFormed _ _ (by decide) (.inl rfl)
theorem txStart : Statement .txStart := cmdAccess_wellFormed _ _ (by decide) (.inl rfl)
theorem txByte (b : Byte) : Statement (.txByte b) := cmdAccess_wellFormed _ _ (by decide) (.inr (by decide))
theorem txRange : Statement .txRange := cmdAccess_wellFormed _ _ (by decide) (.inl rfl)
theorem txEnd : Statement .txEnd := cmdAccess_wellFormed _ _ (by decide) (.inl rfl)
theorem rxByte (w : Byte) : Statement (.rxByte w) := cmdAccess_wellFormed _ _ (by decide) (.inr (by decide))
theorem rxAck : Statement .rxAck := cmdAccess_wellFormed _ _ (by decide) (.inl rfl)
theorem sdDecode : Statement .sdDecode := cmdAccess_wellFormed _ _ (by decide) (.inl rfl)
theorem sreset : Statement .sreset := cmdAccess_wellFormed _ _ (by decide) (.inl rfl)
theorem rdStatus : Statement .rdStatus := rfl
theorem rdTxData : Statement .rdTxData := rfl
theorem rdTxLevel : Statement .rdTxLevel := rfl
theorem rdTxFcs : Statement .rdTxFcs := rfl
theorem rdRxData : Statement .rdRxData := rfl
theorem rdRxStatus : Statement .rdRxStatus := rfl
theorem rdRxFcs : Statement .rdRxFcs := rfl
theorem rdSdTag : Statement .rdSdTag := rfl
theorem rdSdTs : Statement .rdSdTs := rfl
theorem rdSdValLo : Statement .rdSdValLo := rfl
theorem rdSdValHi : Statement .rdSdValHi := rfl
theorem rdSdResult : Statement .rdSdResult := rfl
theorem rdSdCode : Statement .rdSdCode := rfl
theorem rdSdMantLo : Statement .rdSdMantLo := rfl
theorem rdSdMantHi : Statement .rdSdMantHi := rfl
theorem rdSdTstamp : Statement .rdSdTstamp := rfl
theorem rdRangeStart : Statement .rdRangeStart := rfl
theorem rdRangeEnd : Statement .rdRangeEnd := rfl
theorem wrSdTag (v : Word) : Statement (.wrSdTag v) := by simp [Statement, encode, Access.wellFormed, writableOffsets]
theorem wrSdTs (v : Word) : Statement (.wrSdTs v) := by simp [Statement, encode, Access.wellFormed, writableOffsets]
theorem wrSdValLo (v : Word) : Statement (.wrSdValLo v) := by simp [Statement, encode, Access.wellFormed, writableOffsets]
theorem wrSdValHi (v : Word) : Statement (.wrSdValHi v) := by simp [Statement, encode, Access.wellFormed, writableOffsets]
theorem wrRangeStart (v : Word) : Statement (.wrRangeStart v) := by simp [Statement, encode, Access.wellFormed, writableOffsets]
theorem wrRangeEnd (v : Word) : Statement (.wrRangeEnd v) := by simp [Statement, encode, Access.wellFormed, writableOffsets]

end Sys2Proof.Laws.EncodeFits
end

