-- ==== Sys2Proof/Laws/Stream.lean ====
section
/-! SUPPORT. Runs of bytes: escaped bytes and whole frames fed to the deframer, content bytes given to the TX framer. -/

namespace Sys2Proof.Machine

/-- Feeding the escape of a byte to an open frame with room appends that byte. -/
theorem feed_esc (P : Config.Params) (b : Byte) (s : State) (hd : s.rxDone = false) (ho : s.rxState = .opened)
    (hr : s.rxBody.length < P.rxMaxBody) :
    feed P (esc b) s = { s with rxBody := s.rxBody ++ [b], cmdErr := .ok } := by
  by_cases hb : b ∈ escapedSet
  · have hx : b ^^^ xmask ≠ delim := by revert b; decide
    have h2 : (b ^^^ xmask) ^^^ xmask = b := by rw [BitVec.xor_assoc, BitVec.xor_self, BitVec.xor_zero]
    rw [esc_of_mem hb, feed_cons, feed_cons, feed_nil]
    have h1 : rxByte P escb s = { s with rxState := .esc, cmdErr := .ok } := by
      rw [rxByte_of_idle _ hd]
      simp [rxConsume, ho, show ¬ escb = delim by decide, State.succeed]
    rw [h1, rxByte_of_idle _ (by exact hd)]
    simp only [rxConsume, if_neg hx, h2]
    rw [rxAppend_of_room b (by simp; omega)]
    simp [State.succeed, ho]
  · have hd' : b ≠ delim := by rintro rfl; exact hb (by decide)
    have he : b ≠ escb := by rintro rfl; exact hb (by decide)
    rw [esc_of_not_mem hb, feed_cons, feed_nil, rxByte_of_idle _ hd]
    simp only [rxConsume, ho, if_neg hd', if_neg he]
    rw [rxAppend_of_room b (by omega)]
    simp [State.succeed, ho]

/-- Feeding escaped bytes to an open frame with room appends the bytes. -/
theorem feed_escs (P : Config.Params) (l : List Byte) (s : State) (hd : s.rxDone = false) (ho : s.rxState = .opened)
    (hr : s.rxBody.length + l.length ≤ P.rxMaxBody) (hc : s.cmdErr = .ok) :
    feed P (escs l) s = { s with rxBody := s.rxBody ++ l } := by
  induction l generalizing s with
  | nil => simp
  | cons b l ih =>
    simp only [List.length_cons] at hr
    rw [escs_cons, feed_append, feed_esc P b s hd ho (by omega), ih _ (by exact hd) (by exact ho) (by simp; omega) rfl]
    simp [← hc]

/-- Feeding a frame's body and closing delimiter to a frame just opened latches OK with its content. -/
theorem feed_body (P : Config.Params) (c : List Byte) (s : State) (hd : s.rxDone = false) (ho : s.rxState = .opened)
    (hb : s.rxBody = []) (hc : s.cmdErr = .ok) (hr : c.length + 2 ≤ P.rxMaxBody) :
    feed P (escs (bodyOf P c) ++ [delim]) s = s.latch .ok .none c (fcs16 P c) (fcs16 P c) := by
  rw [feed_append, feed_escs P _ s hd ho (by simp [hb]; omega) hc, feed_cons, feed_nil, rxByte_of_idle _ (by exact hd), hb]
  simp only [rxConsume, ho, List.nil_append]
  have hbody : bodyOf P c = c ++ [lo8 (fcs16 P c), hi8 (fcs16 P c)] := rfl
  rw [if_pos trivial, rxClose, if_neg (by simp), if_neg (by simp), rxVerify_append (c := c) (by exact hbody), le16_lo8_hi8, if_pos rfl]
  simp [State.latch, State.succeed, hc, ho]

/-- A frame begins with a delimiter. -/
theorem encodeFrame_eq (P : Config.Params) (c : List Byte) :
    encodeFrame P c = delim :: (escs (bodyOf P c) ++ [delim]) := by simp [encodeFrame]

/-- A delimiter with nothing latched and nothing collected opens a frame. -/
theorem rxByte_delim_opens (P : Config.Params) {s : State} (hd : s.rxDone = false)
    (ho : s.rxState = .hunt ∨ (s.rxState = .opened ∧ s.rxBody = [])) :
    rxByte P delim s = { s with rxState := .opened, rxBody := [], cmdErr := .ok } := by
  rw [rxByte_of_idle _ hd]
  rcases ho with h | ⟨h, h'⟩
  · simp [rxConsume, h, State.succeed]
  · simp [rxConsume, h, h', State.succeed, rxClose]

/-- Feeding a whole frame latches OK with its content. -/
theorem feed_encodeFrame (P : Config.Params) (c : List Byte) (s : State) (hd : s.rxDone = false)
    (ho : s.rxState = .hunt ∨ (s.rxState = .opened ∧ s.rxBody = [])) (hr : c.length + 2 ≤ P.rxMaxBody) :
    feed P (encodeFrame P c) s =
      State.latch { s with rxState := .opened, rxBody := [], cmdErr := .ok } .ok .none c (fcs16 P c) (fcs16 P c) := by
  rw [encodeFrame_eq, feed_cons, rxByte_delim_opens P hd ho, feed_body P c _ (by exact hd) rfl rfl rfl hr]

/-- TX_BYTE of each content byte, with room for all of them, pushes their escape and folds them into the checksum. -/
theorem run_txBytes (l : List Byte) (s : State) (ha : s.txActive = true) (hc : l ≠ [] ∨ s.cmdErr = .ok)
    (h : s.txq.length + (escs l).length ≤ Config.params.txqDepth) :
    runInstrs (l.map .txByte) s = .next { s with txq := s.txq ++ escs l, txAcc := fcsFold Config.params s.txAcc l, cmdErr := .ok } := by
  induction l generalizing s with
  | nil => simp at hc; simp [← hc]
  | cons b l ih =>
    have h1 : exec (.txByte b) s = .next { s with txq := s.txq ++ esc b, txAcc := Config.params.fcsUpd s.txAcc b, cmdErr := .ok } := by
      show Host.Outcome.next (txContent Config.params [b] s) = _
      simp only [escs_cons, List.length_append] at h
      rcases txContent_cases Config.params (List.cons_ne_nil b []) s with ⟨h1, -⟩ | ⟨h1, h2, -⟩ | ⟨h1, h2, h'⟩
      · simp [ha] at h1
      · simp at h2; omega
      · rw [h']; simp
    rw [List.map_cons, runInstrs_cons _ h1]
    refine (ih { s with txq := s.txq ++ esc b, txAcc := Config.params.fcsUpd s.txAcc b, cmdErr := .ok } ha (.inr rfl) ?_).trans ?_
    · simp at h ⊢; omega
    · simp

end Sys2Proof.Machine
end

