-- ==== Sys2Proof/Laws/Word.lean ====
section
/-! SUPPORT. Concatenation of bit vectors as arithmetic: what the register fields of Machine/Flags.lean are read by. -/

namespace Sys2Proof

/-- A concatenation as a number: the high part times a power of two, plus the low part. -/
theorem toNat_append_mul {n m : Nat} (hi : BitVec n) (lo : BitVec m) :
    (hi ++ lo).toNat = hi.toNat * 2 ^ m + lo.toNat := by
  rw [BitVec.toNat_append, ← Nat.shiftLeft_add_eq_or_of_lt lo.isLt, Nat.shiftLeft_eq]

end Sys2Proof
end

