-- ==== Sys2Proof/Tests/Slice0.lean ====
section
/-! SUPPORT. Tests. The expected values are the spec's: the worked vectors of 95_test_vectors.md (named in each
comment), the encodings of 30_encoding.md R80 to R86 and the register map of 10_state.md R23. Then one witness for
the hypotheses of each obligation that has some. -/

namespace Sys2Proof.Tests

open Sys2Proof Sys2Proof.Machine
open Sys2Proof.Config (Params)

/-! ### The parameters the vectors assume (95_test_vectors.md, first lines; 93_implementation_defined.md I1) -/

/-- One bit of the CRC-16/X.25 update. -/
def crcBit (x : Half) : Half := if x.getLsbD 0 then (x >>> 1) ^^^ 0x8408 else x >>> 1

/-- Profile I1 with the depths of the vectors; the shapes are 0, 1, 2, 3 and the codes 1 to 6. -/
def i1 : Params where
  fcsInit := 0xFFFF
  fcsUpd acc b := crcBit (crcBit (crcBit (crcBit (crcBit (crcBit (crcBit (crcBit (acc ^^^ b.setWidth 16))))))))
  fcsFin acc := acc ^^^ 0xFFFF
  txqSpare := 48
  rxSpare := 62
  shapes := Equiv.refl Byte
  codeProdToday := 1
  codeProdLifetime := 2
  codeSpotAcPower := 3
  codeSpotAcFrequency := 4
  codeOperationTime := 5
  codeOperationFeedinTime := 6
  rawSigned := true

/-- The reset state under profile I1. -/
def r0 : State := State.resetWith i1

/-- A state whose host has one access left. -/
def oneAccess (a : Access) : State := { State.reset with hostMoves := [.access a] }

/-! ### Decoding: one word or access of the spec for every constructor -/

/-- 30_encoding.md R83: the words of the opcode map. -/
theorem test_decode_commands :
    decode (.write 0x00 4 0x00000000) = .instr .nop ∧
    decode (.write 0x00 4 0x00000001) = .instr .txStart ∧
    decode (.write 0x00 4 0x00007E02) = .instr (.txByte 0x7E) ∧
    decode (.write 0x00 4 0x00000003) = .instr .txRange ∧
    decode (.write 0x00 4 0x00000004) = .instr .txEnd ∧
    decode (.write 0x00 4 0x00003610) = .instr (.rxByte 0x36) ∧
    decode (.write 0x00 4 0x00000011) = .instr .rxAck ∧
    decode (.write 0x00 4 0x00000020) = .instr .sdDecode ∧
    decode (.write 0x00 4 0x000000FF) = .instr .sreset := by decide

/-- 10_state.md R23: the reads of the status, TX and RX registers. -/
theorem test_decode_framer_reads :
    decode (.read 0x04 4) = .instr .rdStatus ∧ decode (.read 0x08 4) = .instr .rdTxData ∧
    decode (.read 0x0C 4) = .instr .rdTxLevel ∧ decode (.read 0x10 4) = .instr .rdTxFcs ∧
    decode (.read 0x20 4) = .instr .rdRxData ∧ decode (.read 0x24 4) = .instr .rdRxStatus ∧
    decode (.read 0x28 4) = .instr .rdRxFcs := by decide

/-- R23: the reads of the scalar decoder and range registers. -/
theorem test_decode_scalar_reads :
    decode (.read 0x40 4) = .instr .rdSdTag ∧ decode (.read 0x44 4) = .instr .rdSdTs ∧
    decode (.read 0x48 4) = .instr .rdSdValLo ∧ decode (.read 0x4C 4) = .instr .rdSdValHi ∧
    decode (.read 0x50 4) = .instr .rdSdResult ∧ decode (.read 0x54 4) = .instr .rdSdCode ∧
    decode (.read 0x58 4) = .instr .rdSdMantLo ∧ decode (.read 0x5C 4) = .instr .rdSdMantHi ∧
    decode (.read 0x60 4) = .instr .rdSdTstamp ∧ decode (.read 0x70 4) = .instr .rdRangeStart ∧
    decode (.read 0x74 4) = .instr .rdRangeEnd := by decide

/-- R23, 44_control.md R182: the plain writes. -/
theorem test_decode_writes :
    decode (.write 0x40 4 0x01020304) = .instr (.wrSdTag 0x01020304) ∧
    decode (.write 0x44 4 0x5F000000) = .instr (.wrSdTs 0x5F000000) ∧
    decode (.write 0x48 4 0x00001384) = .instr (.wrSdValLo 0x00001384) ∧
    decode (.write 0x4C 4 0x80000000) = .instr (.wrSdValHi 0x80000000) ∧
    decode (.write 0x70 4 0x00263F00) = .instr (.wrRangeStart 0x00263F00) ∧
    decode (.write 0x74 4 0x00263FFF) = .instr (.wrRangeEnd 0x00263FFF) := by decide

/-- 30_encoding.md R86: the assembly forms of the vectors. -/
theorem test_assembly_forms :
    (AsmLine.command 0x02 0x7E).access = .write 0x00 4 0x00007E02 ∧
    (AsmLine.wr .rangeStart 0x7E000011).access = .write 0x70 4 0x7E000011 ∧
    (AsmLine.rd .txLevel).access = .read 0x0C 4 ∧ (AsmLine.raw 0x000001FF).access = .write 0x00 4 0x000001FF := by decide

/-! ### Accesses the model refuses, one per check -/

/-- B-4, B-9: a size that is not 4, checked first. -/
theorem test_refuse_size : decode (.read 0x04 1) = .busError .size ∧ decode (.read 0x4E 2) = .busError .size ∧
    (Access.read 0x04 1).wellFormed = false := by decide

/-- B-3: a misaligned offset. -/
theorem test_refuse_misaligned :
    decode (.read 0x01 4) = .busError .misaligned ∧ (Access.read 0x01 4).wellFormed = false := by decide

/-- B-5, B-6: an unmapped offset. -/
theorem test_refuse_unmapped : decode (.read 0x14 4) = .busError .unmapped ∧
    decode (.read 0x80 4) = .busError .unmapped ∧ (Access.read 0x14 4).wellFormed = false := by decide

/-- B-1: a read of CMD. -/
theorem test_refuse_read_of_cmd :
    decode (.read 0x00 4) = .busError .readOfWriteOnly ∧ (Access.read 0x00 4).wellFormed = false := by decide

/-- B-2, B-7, B-8: writes of read-only registers. -/
theorem test_refuse_write_of_read_only :
    decode (.write 0x04 4 0x12345678) = .busError .writeOfReadOnly ∧
    decode (.write 0x50 4 0) = .busError .writeOfReadOnly ∧
    decode (.write 0x08 4 0) = .busError .writeOfReadOnly ∧ (Access.write 0x04 4 0).wellFormed = false := by decide

/-- C-ILL-1, C-ILL-4: RSV is not 0. -/
theorem test_refuse_rsv : decode (.write 0x00 4 0x00010000) = .illegal .rsv ∧
    decode (.write 0x00 4 0x00FF0010) = .illegal .rsv ∧ cmdWordWellFormed 0x00010000 = false := by decide

/-- C-ILL-2, C-ILL-6: an unassigned OPC. -/
theorem test_refuse_opc : decode (.write 0x00 4 0x00000005) = .illegal .opc ∧
    decode (.write 0x00 4 0x00000121) = .illegal .opc ∧ cmdWordWellFormed 0x00000005 = false := by decide

/-- C-ILL-3, C-SRST-2: ARG is not 0 where no ARG is taken. -/
theorem test_refuse_arg : decode (.write 0x00 4 0x00000100) = .illegal .arg ∧
    decode (.write 0x00 4 0x000001FF) = .illegal .arg ∧ cmdWordWellFormed 0x00000100 = false := by decide

/-- C-ILL-5, C-PRI-1: words with an ARG that are legal. -/
theorem test_accept_arg : decode (.write 0x00 4 0x0000FF10) = .instr (.rxByte 0xFF) ∧
    decode (.write 0x00 4 0x00000102) = .instr (.txByte 0x01) ∧ (Access.write 0x00 4 0x0000FF10).wellFormed = true := by
  decide

/-- The words of the opcode table, as notes/assumptions/5.md lays them out. -/
theorem test_table_words : decodeTableWord 32 0x00007E02 = some (.txByte 0x7E) ∧ decodeTableWord 32 0x00010000 = none ∧
    decodeTableWord 8 0x04 = some .rdStatus ∧ decodeTableWord 8 0x40 = some .rdSdTag ∧
    decodeTableWord 8 0xC0 = some (.wrSdTag 0) ∧ decodeTableWord 16 0x05F4 = some (.wrRangeEnd 0x05) := by decide

/-! ### A step -/

/-- A fetched word runs as the first instruction after reset. -/
theorem test_step_runs_fetched_word :
    step (State.reset.withFetchWord 32 0x00000011) = .next { State.reset with cmdErr := .rxState } := rfl

/-- C-ILL-2: an illegal word ends with ILLEGAL and nothing else. -/
theorem test_step_illegal_word :
    step (oneAccess (.write 0x00 4 0x00000005)) = .next { State.reset with cmdErr := .illegal } := rfl

/-- B-10: a bus error is a fault of the host's program. -/
theorem test_step_bus_error : step (oneAccess (.read 0x08 2)) = .fault (.busError .size) := rfl

/-! ### Frame primitives -/

/-- F-ESC-1 to F-ESC-8. -/
theorem test_escape : escs [0x7E, 0x7D, 0x11, 0x12, 0x13] = [0x7D, 0x5E, 0x7D, 0x5D, 0x7D, 0x31, 0x7D, 0x32, 0x7D, 0x33] ∧
    escs [0x5E, 0x20, 0x10, 0x14, 0x7C, 0x7F] = [0x5E, 0x20, 0x10, 0x14, 0x7C, 0x7F] := by decide

/-- F-UNESC-1 to F-UNESC-3. -/
theorem test_unescape : unescs [0x7D, 0x5E, 0x7D, 0x41] = some [0x7E, 0x61] ∧ unescs [0x41, 0x7D] = none ∧
    unescs [0x7D, 0x7E] = none := by decide

set_option maxRecDepth 8000 in
/-- F-FCS-10, F-FCS-11: a frame, and a frame whose checksum bytes are escaped. -/
theorem test_encode_frame : encodeFrame i1 [0x7E, 0x41] = [0x7E, 0x7D, 0x5E, 0x41, 0x1E, 0x36, 0x7E] ∧
    encodeFrame i1 [0x1B, 0x00] = [0x7E, 0x1B, 0x00, 0x7D, 0x5E, 0x7D, 0x5E, 0x7E] := by decide

set_option maxRecDepth 8000 in
/-- F-FCS-0: the check value of profile I1. -/
theorem test_checksum : fcs16 i1 [0x31, 0x32, 0x33, 0x34, 0x35, 0x36, 0x37, 0x38, 0x39] = 0x906E := by decide

/-! ### The TX framer -/

/-- T-START-1. -/
theorem test_tx_start : statusWord (txStart i1 r0) = 0x00000001 ∧ (txStart i1 r0).txq = [0x7E] ∧
    txFcsWord (txStart i1 r0) = 0x0000FFFF := by decide

/-- T-START-2, C-PRI-2: a frame is open, which is checked before the room. -/
theorem test_tx_start_while_open : statusWord (txStart i1 { r0 with txActive := true, txq := [0x7E] }) = 0x00000201 ∧
    statusWord (txStart i1 { r0 with txActive := true, txq := List.replicate 64 0 }) = 0x00000201 := by decide

/-- T-BYTE-1. -/
theorem test_tx_byte_escaped : (txContent i1 [0x7E] { r0 with txActive := true, txq := [0x7E] }).txq = [0x7E, 0x7D, 0x5E] ∧
    txFcsWord (txContent i1 [0x7E] { r0 with txActive := true, txq := [0x7E] }) = 0x0000957E := by decide

set_option maxRecDepth 8000 in
/-- T-BYTE-4, T-BYTE-5: one byte is free. -/
theorem test_tx_byte_full :
    statusWord (txContent i1 [0x7E] { r0 with txActive := true, txq := List.replicate 63 0 }) = 0x00000301 ∧
    txLevelWord (txContent i1 [0x41] { r0 with txActive := true, txq := List.replicate 63 0 }) = 64 := by decide

set_option maxRecDepth 8000 in
/-- T-RANGE-1. -/
theorem test_tx_range :
    let s := txContent i1 (rangeBytes { r0 with rangeStart := 0x7E000011 }) { r0 with txActive := true }
    s.txq = [0x7D, 0x31, 0x00, 0x00, 0x7D, 0x5E, 0x00, 0x00, 0x00, 0x00] ∧ txFcsWord s = 0x0000D200 := by decide

/-- T-RANGE-3: start and end are serialised in that order, whatever they are. -/
theorem test_tx_range_reversed :
    rangeBytes { r0 with rangeStart := 5, rangeEnd := 1 } = [0x05, 0, 0, 0, 0x01, 0, 0, 0] := by decide

/-- T-END-2. -/
theorem test_tx_end :
    let s := txEnd i1 { r0 with txActive := true, txq := [0x7E, 0x7D, 0x5E, 0x41], txAcc := 0xC9E1 }
    s.txq = [0x7E, 0x7D, 0x5E, 0x41, 0x1E, 0x36, 0x7E] ∧ statusWord s = 0 ∧ txFcsWord s = 0x0000C9E1 := by decide

/-- T-END-4. -/
theorem test_tx_end_no_frame : statusWord (txEnd i1 r0) = 0x00000200 := by decide

/-- T-DATA-1, T-DATA-3. -/
theorem test_rd_tx_data : (readTxData { r0 with txq := [0x7E, 0x7D, 0x5E] }).hostReads = [0x0000017E] ∧
    (readTxData { r0 with txq := [0x7E, 0x7D, 0x5E] }).txq = [0x7D, 0x5E] ∧
    (readTxData { r0 with txq := [0x00] }).hostReads = [0x00000100] := by decide

/-- T-DATA-2. -/
theorem test_rd_tx_data_empty : (readTxData r0).hostReads = [0x00000000] := by decide

/-! ### The RX deframer -/

/-- The deframer in OPEN with a body. -/
def opened (body : List Byte) : State := { r0 with rxState := .opened, rxBody := body }

set_option maxRecDepth 8000 in
/-- R-OK-1, its last byte. -/
theorem test_rx_ok : let s := rxByte i1 0x7E (opened [0x7E, 0x41, 0x1E, 0x36])
    statusWord s = 0x00000006 ∧ rxStatusWord s = 0x00020001 ∧ rxFcsWord s = 0x361E361E ∧ s.rxContent = [0x7E, 0x41] := by
  decide

/-- R-ERR-3, its last byte. -/
theorem test_rx_mismatch : let s := rxByte i1 0x7E (opened [0x41, 0x00, 0x00])
    statusWord s = 0x00000006 ∧ rxStatusWord s = 0x00000003 ∧ rxFcsWord s = 0xA3F50000 := by decide

/-- R-ERR-1, its last byte: a dangling escape. -/
theorem test_rx_dangling : let s := rxByte i1 0x7E { opened [0x41] with rxState := .esc }
    statusWord s = 0x00000006 ∧ rxStatusWord s = 0x00000022 := by decide

/-- R-ERR-2, its last byte: a short body. -/
theorem test_rx_short : let s := rxByte i1 0x7E (opened [0x41])
    statusWord s = 0x00000006 ∧ rxStatusWord s = 0x00000032 := by decide

set_option maxRecDepth 8000 in
/-- R-ERR-4, its last byte: the 65th body byte. -/
theorem test_rx_overflow : let s := rxByte i1 0x00 (opened (List.replicate 64 0))
    statusWord s = 0x00000002 ∧ rxStatusWord s = 0x00000012 := by decide

/-- R-BUSY-1. -/
theorem test_rx_busy : statusWord (rxByte i1 0x41 { opened [] with rxDone := true }) = 0x00000406 := by decide

/-- R-ACK-1, R-ACK-2. -/
theorem test_rx_ack :
    statusWord (rxAck { opened [] with rxDone := true, rxResult := .ok, cmdErr := .rxBusy }) = 0x00000004 ∧
    rxStatusWord (rxAck { opened [] with rxDone := true, rxResult := .ok }) = 0 ∧ statusWord (rxAck r0) = 0x00000500 := by
  decide

/-- R-DATA-1, its second and third reads. -/
theorem test_rd_rx_data :
    let s := { opened [] with rxDone := true, rxResult := .ok, rxContent := [0x7E, 0x41], rxRd := 1 }
    (readRxData (readRxData s)).hostReads = [0x00000141, 0x00000000] := by decide

set_option maxRecDepth 8000 in
/-- R-OK-1 and F-UNESC-3 at buffer level, R150. -/
theorem test_decode_frame : decodeFrame i1 [0x7E, 0x7D, 0x5E, 0x41, 0x1E, 0x36, 0x7E] = .ok [0x7E, 0x41] ∧
    decodeFrame i1 [0x7E, 0x1F, 0x00, 0x61] = .framingError .noClose := by decide

set_option maxRecDepth 8000 in
/-- R-SYNC-1 as a stream: a dangling escape, then a frame that needs no new opening delimiter. -/
theorem test_decode_stream : decodeStream i1 [0x7E, 0x41, 0x7D, 0x7E, 0x00, 0x78, 0xF0, 0x7E] =
    [.framingError .danglingEsc, .ok [0x00]] := by decide

/-! ### The scalar decoder -/

/-- A record's inputs. -/
def record (tag ts lo hi : Word) : State := { r0 with sdTag := tag, sdTs := ts, sdValLo := lo, sdValHi := hi }

/-- S-1, a frequency: 4996 x 10^-2. -/
theorem test_sd_frequency : let s := sdDecode i1 (record 0x03000004 0x5F000000 0x00001384 0)
    sdResultWord s = 0x0CFE0441 ∧ sdCodeWord s = 4 ∧ sdMantLoWord s = 0x00001384 ∧ s.sdTstamp = 0x5F000000 := by decide

/-- S-2, a negative 4-byte value under RAW_SIGNED; S-5, an 8-byte value kept bit for bit. -/
theorem test_sd_extension : sdMantHiWord (sdDecode i1 (record 0x03000003 0 0xFFFFFCC7 0xDEADBEEF)) = 0xFFFFFFFF ∧
    sdMantHiWord (sdDecode { i1 with rawSigned := false } (record 0x03000003 0 0xFFFFFCC7 0)) = 0 ∧
    sdMantHiWord (sdDecode i1 (record 0x00000001 0 0x00000001 0x80000000)) = 0x80000000 := by decide

/-- S-6: the shape of a recognised code is not consulted; S-13: of equal codes the lower index wins. -/
theorem test_sd_recognised : sdResultWord (sdDecode i1 (record 0x02000003 7 0x00000339 0)) = 0x0C000431 ∧
    sdResultWord (sdDecode { i1 with codeSpotAcFrequency := 3 } (record 0x03000003 0 0x00001384 0)) = 0x0C000431 := by
  decide

/-- S-8 to S-12: unrecognised codes, by shape LONG, INT, STATUS, TEXT and unknown. -/
theorem test_sd_unrecognised : sdResultWord (sdDecode i1 (record 0x000000AA 9 1 2)) = 0x10000802 ∧
    sdResultWord (sdDecode i1 (record 0x030000AA 9 1 2)) = 0x0C000402 ∧
    sdResultWord (sdDecode i1 (record 0x010000AA 9 1 2)) = 0x00000003 ∧
    sdResultWord (sdDecode i1 (record 0x020000AA 9 1 2)) = 0x00000003 ∧
    sdResultWord (sdDecode i1 (record 0xEE0000AA 9 1 2)) = 0x00000003 := by decide

/-- S-1, S-2: the exact values 49.96 and -825. -/
theorem test_sd_value : mantissa i1 (sdDecode i1 (record 0x03000003 0 0xFFFFFCC7 0)) = -825 ∧
    (sdDecode i1 (record 0x03000004 0 0x00001384 0)).sdExp.toInt = -2 := by decide

/-- 43_scalar_decoder.md R160: the payload words are little-endian. -/
theorem test_payload_word : payloadWord [0x04, 0x00, 0x00, 0x03, 0, 0, 0, 0x5F, 0x84, 0x13, 0, 0] 8 = 0x00001384 := by decide

/-! ### Control and registers -/

/-- C-NOP-1. -/
theorem test_nop : statusWord (State.succeed { r0 with txActive := true, cmdErr := .txState }) = 0x00000001 := by decide

/-- C-SRST-1. -/
theorem test_sreset : let s := resetBlock i1 { r0 with txActive := true, txq := [0x7E], txAcc := 0x0E8F, sdTag := 5 }
    statusWord s = 0 ∧ txLevelWord s = 0 ∧ txFcsWord s = 0x0000FFFF ∧ s.sdTag = 0 := by decide

/-- C-REG-1. -/
theorem test_write_then_read : runInstrs [.wrRangeStart 0x00263F00, .rdRangeStart] State.reset =
    .next { State.reset with rangeStart := 0x00263F00, hostReads := [0x00263F00] } := rfl

/-- The reads of the six RW registers return six different words in the order of the reads. -/
theorem test_data_registers :
    runInstrs [.rdSdTag, .rdSdTs, .rdSdValLo, .rdSdValHi, .rdRangeStart, .rdRangeEnd]
      { State.reset with sdTag := 1, sdTs := 2, sdValLo := 3, sdValHi := 4, rangeStart := 5, rangeEnd := 6 } =
    .next { State.reset with
      sdTag := 1, sdTs := 2, sdValLo := 3, sdValHi := 4, rangeStart := 5, rangeEnd := 6,
      hostReads := [1, 2, 3, 4, 5, 6] } := rfl

/-! ### Witnesses: states and operands that meet the hypotheses of the obligations -/

/-- The smallest FIFO has room for 16 bytes. -/
theorem sixteen_le_depth : 16 ≤ Config.params.txqDepth := by simp [Params.txqDepth]

theorem two_le_maxBody : 2 ≤ Config.params.rxMaxBody := by simp [Params.rxMaxBody]

/-- A TX FIFO with exactly `free` bytes of room, and a frame open or not. -/
def filled (active : Bool) (free : Nat) : State :=
  { State.reset with txActive := active, txq := List.replicate (Config.params.txqDepth - free) 0 }

theorem filled_length (active : Bool) {free : Nat} (h : free ≤ 16) :
    (filled active free).txq.length + free = Config.params.txqDepth := by
  have := sixteen_le_depth
  simp only [filled, List.length_replicate]
  omega

/-- The deframer in OPEN, ESC or HUNT with a body, under the open parameters. -/
def receiving (st : RxState) (body : List Byte) : State := { State.reset with rxState := st, rxBody := body }

/-- A latched OK frame of zero-length content. -/
def okLatched : State := (receiving .opened []).latch .ok .none [] (fcs16 Config.params []) (fcs16 Config.params [])

/-- A latched framing error other than an overflow. -/
def shortLatched : State := (receiving .opened []).latch .framingError .shortBody [] 0 0

/-- A latched overflow. -/
def overflowLatched : State := (receiving .hunt []).latch .framingError .overflow [] 0 0

theorem okLatched_inv : RxInv Config.params okLatched := by
  have := two_le_maxBody
  apply rxInv_latch <;> simp [receiving]
  exact this

theorem shortLatched_inv : RxInv Config.params shortLatched := by apply rxInv_latch <;> simp [receiving]

theorem overflowLatched_inv : RxInv Config.params overflowLatched := by apply rxInv_latch <;> simp [receiving]

/-- A pending read of STATUS. -/
theorem test_witness_StepRunsDecodedInstruction :
    (oneAccess (.read 0x04 4)).hostMoves = .access (.read 0x04 4) :: [] ∧ decode (.read 0x04 4) = .instr .rdStatus := by
  decide

theorem test_witness_StepOnResetEventAndAtTheEnd :
    ({ State.reset with hostMoves := [.reset, .reset] } : State).hostMoves = .reset :: [.reset] ∧
    State.reset.hostMoves = [] := by decide

/-- One word for each way of being illegal, with RSV, OPC and ARG at a boundary, and a legal word. -/
theorem test_witness_IllegalWordsFailAndLegalWordsAreCommands :
    (0x00010000 : Word).toNat / 65536 ≠ 0 ∧
    (0x00000012 : Word).toNat % 256 ∉ [0x00, 0x01, 0x02, 0x03, 0x04, 0x10, 0x11, 0x20, 0xFF] ∧
    ((0x000001FF : Word).toNat / 256 % 256 ≠ 0 ∧ (0x000001FF : Word).toNat % 256 ∉ [0x02, 0x10]) ∧
    ¬((0x0000FF10 : Word).toNat / 65536 ≠ 0 ∨
      (0x0000FF10 : Word).toNat % 256 ∉ [0x00, 0x01, 0x02, 0x03, 0x04, 0x10, 0x11, 0x20, 0xFF] ∨
      ((0x0000FF10 : Word).toNat / 256 % 256 ≠ 0 ∧ (0x0000FF10 : Word).toNat % 256 ∉ [0x02, 0x10])) ∧
    (oneAccess (.write 0x00 4 0x00010000)).hostMoves = .access (.write 0x00 4 0x00010000) :: [] := by decide

/-- One read for each branch: sizes 3 and 5, offsets 0x01, 0x14 and 0x78, CMD, and the highest register. -/
theorem test_witness_BusErrorsInOrder_reads :
    (oneAccess (.read 0x04 3)).hostMoves = .access (.read 0x04 3) :: [] ∧
    step (oneAccess (.read 0x04 5)) = .fault (.busError .size) ∧
    step (oneAccess (.read 0x01 4)) = .fault (.busError .misaligned) ∧
    step (oneAccess (.read 0x14 4)) = .fault (.busError .unmapped) ∧
    step (oneAccess (.read 0x78 4)) = .fault (.busError .unmapped) ∧
    step (oneAccess (.read 0x00 4)) = .fault (.busError .readOfWriteOnly) ∧
    ∃ t, step (oneAccess (.read 0x74 4)) = .next t := ⟨rfl, rfl, rfl, rfl, rfl, rfl, _, rfl⟩

theorem test_witness_BusErrorsInOrder_writes :
    (oneAccess (.write 0x70 4 1)).hostMoves = .access (.write 0x70 4 1) :: [] ∧
    step (oneAccess (.write 0x70 5 1)) = .fault (.busError .size) ∧
    step (oneAccess (.write 0x71 4 1)) = .fault (.busError .misaligned) ∧
    step (oneAccess (.write 0x64 4 1)) = .fault (.busError .unmapped) ∧
    step (oneAccess (.write 0x60 4 1)) = .fault (.busError .writeOfReadOnly) ∧
    ∃ t, step (oneAccess (.write 0x74 4 1)) = .next t := ⟨rfl, rfl, rfl, rfl, rfl, _, rfl⟩

theorem test_witness_OnlyBusErrorsStopTheMachine :
    step (oneAccess (.read 0x00 4)) = .fault (.busError .readOfWriteOnly) := rfl

theorem test_witness_EncodeOfDecodeIsTheAccess :
    decode (.write 0x74 4 0xFFFFFFFF) = .instr (.wrRangeEnd 0xFFFFFFFF) := by decide

/-- TX_START: one byte free, a frame open, no byte free. -/
theorem test_witness_TxStartOpensAFrame :
    ((filled false 1).txActive = false ∧ (filled false 1).txq.length + 1 ≤ Config.params.txqDepth) ∧
    (filled true 1).txActive = true ∧
    ((filled false 0).txActive = false ∧ Config.params.txqDepth < (filled false 0).txq.length + 1) := by
  have h1 := filled_length false (free := 1) (by decide)
  have h0 := filled_length false (free := 0) (by decide)
  exact ⟨⟨rfl, h1.le⟩, rfl, rfl, by omega⟩

/-- TX_BYTE: an escaped byte with two bytes free and with one, a plain byte with one byte free and with none. -/
theorem test_witness_TxByteEscapesAndAccumulates :
    ((filled true 2).txActive = true ∧ (0x13 : Byte) ∈ [(0x7E : Byte), 0x7D, 0x11, 0x12, 0x13] ∧
      (filled true 2).txq.length + 2 ≤ Config.params.txqDepth) ∧
    ((filled true 1).txActive = true ∧ (0x14 : Byte) ∉ [(0x7E : Byte), 0x7D, 0x11, 0x12, 0x13] ∧
      (filled true 1).txq.length + 1 ≤ Config.params.txqDepth) ∧
    ((filled true 1).txActive = true ∧ Config.params.txqDepth < (filled true 1).txq.length + 2) ∧
    ((filled true 0).txActive = true ∧ Config.params.txqDepth < (filled true 0).txq.length + 1) ∧
    (filled false 2).txActive = false := by
  have h2 := filled_length true (free := 2) (by decide)
  have h1 := filled_length true (free := 1) (by decide)
  have h0 := filled_length true (free := 0) (by decide)
  exact ⟨⟨rfl, by decide, h2.le⟩, ⟨rfl, by decide, h1.le⟩, ⟨rfl, by omega⟩, ⟨rfl, by omega⟩, rfl⟩

/-- TX_RANGE of two zero bounds pushes eight bytes: eight bytes free and seven. -/
theorem test_witness_TxRangeSerialisesTheBounds :
    ((rangeBytes (filled true 8)).flatMap fun b => if b ∈ [(0x7E : Byte), 0x7D, 0x11, 0x12, 0x13] then
      [0x7D, b ^^^ 0x20] else [b]).length = 8 ∧
    ((filled true 8).txActive = true ∧ (filled true 8).txq.length + 8 ≤ Config.params.txqDepth) ∧
    ((filled true 7).txActive = true ∧ Config.params.txqDepth < (filled true 7).txq.length + 8) ∧
    (filled false 8).txActive = false := by
  have h8 := filled_length true (free := 8) (by decide)
  have h7 := filled_length true (free := 7) (by decide)
  exact ⟨rfl, ⟨rfl, h8.le⟩, ⟨rfl, by omega⟩, rfl⟩

theorem test_witness_TxRangeEqualsEightTxBytes : ∃ t, exec .txRange (filled true 8) = .next t ∧ t.cmdErr = .ok := by
  refine ⟨_, rfl, ?_⟩
  have h8 := filled_length true (free := 8) (by decide)
  have hl : (escs (rangeBytes (filled true 8))).length = 8 := rfl
  rcases txContent_cases Config.params (rangeBytes_ne_nil (filled true 8)) (filled true 8) with
    ⟨h, -⟩ | ⟨-, h, -⟩ | ⟨-, -, h⟩
  · cases h
  · omega
  · rw [h]

/-- What TX_END pushes, as the obligation spells it out. -/
def endOut (s : State) : List Byte :=
  let f := Config.params.fcsFin s.txAcc
  ([f.extractLsb' 0 8, f.extractLsb' 8 8] : List Byte).flatMap
    (fun b => if b ∈ [(0x7E : Byte), 0x7D, 0x11, 0x12, 0x13] then [0x7D, b ^^^ 0x20] else [b]) ++ [0x7E]

theorem endOut_eq (s : State) : endOut s = txTrailer Config.params s := by rw [txTrailer, escs_eq_flatMap]; rfl

/-- TX_END: exactly as many bytes free as it pushes, and two, which are always too few. -/
theorem test_witness_TxEndAppendsTheChecksum :
    (∃ s : State, s.txActive = true ∧ s.txq.length + (endOut s).length = Config.params.txqDepth) ∧
    ((filled true 2).txActive = true ∧ Config.params.txqDepth < (filled true 2).txq.length + (endOut (filled true 2)).length) ∧
    (filled false 5).txActive = false := by
  have hl := fun s => txTrailer_length Config.params s
  refine ⟨⟨filled true (txTrailer Config.params (filled true 0)).length, rfl, ?_⟩, ⟨rfl, ?_⟩, rfl⟩
  · rw [endOut_eq]
    exact filled_length true (by have := hl (filled true 0); omega)
  · rw [endOut_eq]
    have := hl (filled true 2)
    have := filled_length true (free := 2) (by decide)
    omega

theorem test_witness_ReadTxDataPopsTheHead :
    ({ State.reset with txq := [0x7E] } : State).txq = 0x7E :: [] ∧ State.reset.txq = [] := by decide

theorem test_witness_TxCommandsSucceedOnAnEmptyFifo :
    State.reset.txq = [] ∧ State.reset.txActive = false ∧ ({ State.reset with txActive := true } : State).txActive = true ∧
    ({ State.reset with txActive := true } : State).txq = [] := by decide

/-- A frame of one content byte that fits exactly. -/
theorem test_witness_TxFramePushesTheEncodedFrame :
    (filled false 8).txActive = false ∧
    (filled false 8).txq.length + (2 * ([0x7E] : List Byte).length + 6) = Config.params.txqDepth :=
  ⟨rfl, filled_length false (by decide)⟩

/-- A frame sent after a failed command (`cmd_err` is RX_BUSY), with two reads of TX_DATA in between. -/
theorem test_witness_TxFrameIsSentInOrderWhileDrained :
    let start : State := { State.reset with cmdErr := .rxBusy }
    let is : List Instr := [.txStart, .rdTxData, .txByte 0x7E, .rdTxData, .txEnd]
    is.filter (fun i => i ≠ .rdTxData) = .txStart :: (([TxItem.byte 0x7E]).map TxItem.instr ++ [.txEnd]) ∧
    start.txActive = false ∧ ∃ t, RunsClean is start t := by
  have hd := sixteen_le_depth
  refine ⟨by decide, rfl, ?_⟩
  obtain ⟨u, hu⟩ : ∃ u : State, u = { State.reset with
    txq := [delim], txAcc := Config.params.fcsInit, txActive := true, cmdErr := .ok } := ⟨_, rfl⟩
  have h1 : exec .txStart { State.reset with cmdErr := .rxBusy } = .next u := by
    show Host.Outcome.next (txStart Config.params { State.reset with cmdErr := .rxBusy }) = _
    rcases txStart_cases Config.params { State.reset with cmdErr := .rxBusy } with ⟨h, -⟩ | ⟨-, h, -⟩ | ⟨-, -, h⟩
    · cases h
    · simp [State.reset, State.resetWith] at h; omega
    · rw [h, hu]; rfl
  have h2 : exec .rdTxData u = .next { u with txq := [], hostReads := [0x0000017E] } := by rw [hu]; rfl
  obtain ⟨w, hw⟩ : ∃ w : State, w = { u with
    txq := [0x7D, 0x5E], hostReads := [0x0000017E], txAcc := Config.params.fcsUpd u.txAcc 0x7E } := ⟨_, rfl⟩
  have h3 : exec (.txByte 0x7E) { u with txq := [], hostReads := [0x0000017E] } = .next w := by
    show Host.Outcome.next (txContent Config.params [0x7E] _) = _
    rcases txContent_cases Config.params (List.cons_ne_nil 0x7E [])
      { u with txq := [], hostReads := [0x0000017E] } with ⟨h, -⟩ | ⟨-, h, -⟩ | ⟨-, -, h⟩
    · rw [hu] at h; cases h
    · have : (escs [0x7E]).length = 2 := rfl
      simp only [List.length_nil, this] at h
      omega
    · rw [h, hw, hu]; rfl
  have h4 : exec .rdTxData w = .next { w with txq := [0x5E], hostReads := [0x0000017E, 0x0000017D] } := by
    rw [hw]; rfl
  have h5 := txTrailer_length Config.params { w with txq := [0x5E], hostReads := [0x0000017E, 0x0000017D] }
  refine ⟨_, u, h1, fun _ => by rw [hu], _, h2, fun _ => by rw [hu], w, h3, fun _ => by rw [hw, hu], _, h4,
    fun _ => by rw [hw, hu], _, rfl, fun _ => ?_, rfl⟩
  rcases txEnd_cases Config.params { w with txq := [0x5E], hostReads := [0x0000017E, 0x0000017D] } with
    ⟨h, -⟩ | ⟨-, h, -⟩ | ⟨-, -, h⟩
  · rw [hw, hu] at h; cases h
  · simp only [List.length_cons, List.length_nil] at h; omega
  · show (txEnd _ _).cmdErr = _; rw [h]

/-- The TX invariant with a full FIFO, for TX_DRAIN and TX_LEVEL. -/
theorem test_witness_TxDrainReturnsTheFifoInOrder_TxRegisterFields :
    TxInv Config.params (filled false 0) ∧ (filled false 0).txq.length = Config.params.txqDepth :=
  ⟨⟨(filled_length false (free := 0) (by decide)).le⟩, filled_length false (free := 0) (by decide)⟩

theorem test_witness_EscapedBytesUnescapeAndHoldNoDelimiter : escs [0x41, 0x11] = [0x41] ++ 0x7D :: [0x31] := by decide

/-- Nothing latched, in each of the three states. -/
theorem test_witness_RxTransitionTable :
    State.reset.rxDone = false ∧ State.reset.rxState = .hunt ∧
    ((receiving .opened [0x41]).rxDone = false ∧ (receiving .opened [0x41]).rxState = .opened) ∧
    ((receiving .esc [0x41]).rxDone = false ∧ (receiving .esc [0x41]).rxState = .esc) := by decide

/-- A body byte in OPEN and in ESC, with one place left and with none. -/
theorem test_witness_RxBodyByteIsKeptOrOverflows :
    ((receiving .opened []).rxDone = false ∧ (receiving .opened []).rxState = .opened ∧ (0x7F : Byte) ≠ 0x7E ∧
      (0x7F : Byte) ≠ 0x7D) ∧
    ((receiving .esc []).rxState = .esc ∧ (0x7D : Byte) ≠ 0x7E ∧ (0x5D : Byte) = 0x7D ^^^ 0x20) ∧
    (receiving .opened (List.replicate (Config.params.rxMaxBody - 1) 0)).rxBody.length ≠ Config.params.rxMaxBody ∧
    (receiving .opened (List.replicate Config.params.rxMaxBody 0)).rxBody.length = Config.params.rxMaxBody := by
  have := two_le_maxBody
  refine ⟨by decide, by decide, ?_, ?_⟩
  · simp only [receiving, List.length_replicate]; omega
  · simp [receiving]

/-- An empty body, a body of one byte, and a body of two. -/
theorem test_witness_RxDelimiterClosesTheFrame :
    ((receiving .opened []).rxDone = false ∧ (receiving .opened []).rxState = .opened ∧
      (receiving .opened []).rxBody = []) ∧
    (receiving .opened [0x41]).rxBody = [0x41] ∧ (receiving .opened [0x00, 0x01]).rxBody = [] ++ [0x00, 0x01] := by decide

theorem test_witness_RxByteIsBusyWhileLatched : okLatched.rxDone = true := rfl

theorem test_witness_RxAckReleasesTheOutcome : okLatched.rxDone = true ∧ State.reset.rxDone = false := ⟨rfl, rfl⟩

/-- An unread byte; nothing latched, an error latched, everything read. -/
theorem test_witness_ReadRxDataReturnsContentOnce :
    let s : State := (receiving .opened []).latch .ok .none [0x41] 0 0
    (s.rxDone = true ∧ s.rxResult = .ok ∧ s.rxContent[s.rxRd]? = some 0x41) ∧ State.reset.rxDone = false ∧
    shortLatched.rxResult ≠ .ok ∧ ({ s with rxRd := 1 } : State).rxContent.length ≤ ({ s with rxRd := 1 } : State).rxRd := by
  decide

theorem test_witness_RxReadReturnsTheContentInOrder :
    let s : State := (receiving .opened []).latch .ok .none [0x41, 0x42] 0 0
    s.rxDone = true ∧ s.rxResult = .ok ∧ s.rxRd = 0 := by decide

theorem test_witness_DecodeFrameInvertsEncodeFrame :
    ([] : List Byte).length + 2 ≤ Config.params.rxMaxBody ∧ [delim] <+: encodeFrame Config.params [] ∧
    IsFrame Config.params (encodeFrame Config.params []) :=
  ⟨two_le_maxBody, ⟨_, (encodeFrame_eq _ _).symm⟩, [], two_le_maxBody, rfl⟩

theorem test_witness_DecodeStreamOfFramesGivesEveryContent :
    (0x7E : Byte) ∉ [(0x7D : Byte), 0x41] ∧ ∀ c ∈ ([[], []] : List (List Byte)), c.length + 2 ≤ Config.params.rxMaxBody := by
  refine ⟨by decide, fun c hc => ?_⟩
  simp only [List.mem_cons, List.not_mem_nil, or_false, or_self] at hc
  rw [hc]
  exact two_le_maxBody

theorem test_witness_DeframerResynchronises :
    (RxInv Config.params shortLatched ∧ shortLatched.rxDone = true ∧ shortLatched.rxCause ≠ .overflow) ∧
    (RxInv Config.params overflowLatched ∧ overflowLatched.rxDone = true ∧ overflowLatched.rxCause = .overflow ∧
      (0x7E : Byte) ∉ [(0x55 : Byte)]) ∧
    ([] : List Byte).length + 2 ≤ Config.params.rxMaxBody :=
  ⟨⟨shortLatched_inv, rfl, by decide⟩, ⟨overflowLatched_inv, rfl, rfl, by decide⟩, two_le_maxBody⟩

theorem test_witness_ScanIsBounded :
    (receiving .opened []).rxState = .opened ∧ (receiving .opened []).rxBody = [] ∧ (receiving .opened []).rxDone = false ∧
    (0x7E : Byte) ∉ List.replicate (2 * (Config.params.rxMaxBody + 1)) (0x7D : Byte) ∧
    (List.replicate (2 * (Config.params.rxMaxBody + 1)) (0x7D : Byte)).length = 2 * (Config.params.rxMaxBody + 1) :=
  ⟨rfl, rfl, rfl, fun h => absurd (List.eq_of_mem_replicate h) (by decide), List.length_replicate⟩

theorem test_witness_LoopbackDeliversTheContent :
    State.reset.txActive = false ∧ State.reset.txq = [] ∧ State.reset.rxState = .hunt ∧ State.reset.rxDone = false ∧
    2 * ([] : List Byte).length + 6 ≤ Config.params.txqDepth ∧ ([] : List Byte).length + 2 ≤ Config.params.rxMaxBody :=
  ⟨rfl, rfl, rfl, rfl, by have := sixteen_le_depth; simp; omega, two_le_maxBody⟩

/-- A record of a shape and a code. -/
def tagged (shape : Byte) (code : Code) : State := { State.reset with sdTag := shape ++ code }

theorem tagged_code (shape : Byte) (code : Code) : (tagged shape code).sdTag.extractLsb' 0 24 = code := by
  apply BitVec.eq_of_toNat_eq
  have := code.isLt
  simp only [tagged, BitVec.extractLsb'_toNat, toNat_append_mul, Nat.shiftRight_zero]
  omega

theorem tagged_shape (shape : Byte) (code : Code) : (tagged shape code).sdTag.extractLsb' 24 8 = shape := by
  apply BitVec.eq_of_toNat_eq
  have := code.isLt
  have := shape.isLt
  simp only [tagged, BitVec.extractLsb'_toNat, toNat_append_mul, Nat.shiftRight_eq_div_pow]
  omega

/-- Six codes leave some code unrecognised. -/
theorem exists_unrecognised : ∃ code : Code, ∀ q : Quantity, q.code Config.params ≠ code := by
  let known : Finset Code := (Quantity.all.map fun q => q.code Config.params).toFinset
  have hk : known.card ≤ 6 := List.toFinset_card_le _
  have hc : (Finset.univ : Finset (Fin 7)).card = 7 := by simp
  by_contra h
  push Not at h
  have hin : ∀ n : Fin 7, BitVec.ofNat 24 n.val ∈ known := fun n => by
    obtain ⟨q, hq⟩ := h (BitVec.ofNat 24 n.val)
    rw [← hq]
    exact List.mem_toFinset.2 (List.mem_map_of_mem (by cases q <;> decide))
  have hinj : Function.Injective fun n : Fin 7 => BitVec.ofNat 24 n.val := by decide
  have := Finset.card_le_card_of_injOn (s := Finset.univ) (t := known) _ (fun n _ => hin n) hinj.injOn
  omega

/-- A recognised code under any shape; an unrecognised one under LONG, INT and STATUS. -/
theorem test_witness_SdDecodeFollowsTheTables :
    (tagged 0xEE Config.params.codeProdToday).sdTag.extractLsb' 0 24 = Config.params.codeProdToday ∧
    ∃ code : Code, (∀ q : Quantity, q.code Config.params ≠ code) ∧
      ((tagged Config.params.shapeLong code).sdTag.extractLsb' 0 24 = code ∧
        (tagged Config.params.shapeLong code).sdTag.extractLsb' 24 8 = Config.params.shapeLong) ∧
      ((tagged Config.params.shapeInt code).sdTag.extractLsb' 0 24 = code ∧
        (tagged Config.params.shapeInt code).sdTag.extractLsb' 24 8 = Config.params.shapeInt) ∧
      ((tagged Config.params.shapeStatus code).sdTag.extractLsb' 0 24 = code ∧
        (tagged Config.params.shapeStatus code).sdTag.extractLsb' 24 8 = Config.params.shapeStatus) := by
  obtain ⟨code, h⟩ := exists_unrecognised
  exact ⟨tagged_code _ _, code, h, ⟨tagged_code _ _, tagged_shape _ _⟩, ⟨tagged_code _ _, tagged_shape _ _⟩,
    tagged_code _ _, tagged_shape _ _⟩

theorem test_witness_RecognisedRecordHasTheExactValue :
    recognise Config.params (tagCode (tagged 0xEE Config.params.codeProdToday).sdTag) = some .prodToday ∧
    ∃ t, exec .sdDecode (tagged 0xEE Config.params.codeProdToday) = .next t := by
  refine ⟨?_, _, rfl⟩
  rw [tagCode, tagged_code]
  simp [recognise, Quantity.all, Quantity.code]

theorem test_witness_PlainReadsReturnTheRegister :
    Reg.status ≠ .txData ∧ Reg.status ≠ .rxData ∧ readInstr .status = some .rdStatus := by decide

/-- The invariant of the deframer on OK, framing error and idle states. -/
theorem test_witness_RxStatusRegisterFields_RxFcsRegisterFields :
    (RxInv Config.params okLatched ∧ okLatched.rxResult = .ok) ∧
    (RxInv Config.params overflowLatched ∧ overflowLatched.rxResult ≠ .ok ∧
      overflowLatched.rxResult ≠ .checksumMismatch) :=
  ⟨⟨okLatched_inv, rfl⟩, overflowLatched_inv, by decide, by decide⟩

theorem test_witness_ReadReturnsTheLastWrite :
    Reg.sdTag ≠ .cmd ∧ decodeWrite 5 .sdTag = .instr (.wrSdTag 5) ∧ readInstr .sdTag = some .rdSdTag ∧
    (∀ i ∈ [Instr.sdDecode, .wrSdTs 7], i ≠ .sreset ∧ ∀ u, decodeWrite u .sdTag ≠ .instr i) ∧
    ∃ t, runInstrs [.wrSdTag 5, .sdDecode, .wrSdTs 7] State.reset = .next t := by
  refine ⟨by decide, rfl, rfl, ?_, _, rfl⟩
  simp [decodeWrite]

/-- A command that fails, one that does not, and one that is no command. -/
theorem test_witness_FailedCommandChangesOnlyCmdErr_OnlyCommandsChangeCmdErr :
    (Instr.isCommand .rxAck = true ∧ exec .rxAck State.reset = .next { State.reset with cmdErr := .rxState }) ∧
    (Instr.isCommand .nop = true ∧ exec .nop State.reset = .next State.reset) ∧
    (Instr.isCommand .rdStatus = false ∧ exec .rdStatus State.reset = .next { State.reset with hostReads := [0] }) :=
  ⟨⟨rfl, rfl⟩, ⟨rfl, rfl⟩, rfl, rfl⟩

theorem test_witness_FramerInstructionsTouchTheirOwnUnit :
    (isTx .txStart = true ∧ ∃ t, exec .txStart State.reset = .next t) ∧
    (isRx (.rxByte 0x7E) = true ∧ ∃ t, exec (.rxByte 0x7E) State.reset = .next t) := ⟨⟨rfl, _, rfl⟩, rfl, _, rfl⟩

/-- Two states that agree in TX and not in RX or `cmd_err`, two that agree in RX and not in TX, and for each stream two
that agree in `cmd_err` too, for its read. -/
theorem test_witness_StreamsDoNotReadEachOther :
    (let s' : State := { filled true 8 with rxBody := [0x41], cmdErr := .rxBusy }
     isTx .txRange = true ∧ Instr.isCommand .txRange = true ∧ (filled true 8).sameTx s' ∧
        ∃ t t', exec .txRange (filled true 8) = .next t ∧ exec .txRange s' = .next t') ∧
    (let s' : State := { okLatched with txq := [0x7E], cmdErr := .txFull }
     isRx .rxAck = true ∧ Instr.isCommand .rxAck = true ∧ okLatched.sameRx s' ∧
        ∃ t t', exec .rxAck okLatched = .next t ∧ exec .rxAck s' = .next t') ∧
    (let s' : State := { okLatched with rxContent := [], hostReads := [5] }
     isTx .rdTxData = true ∧ okLatched.cmdErr = s'.cmdErr ∧ okLatched.sameTx s' ∧
        ∃ t t', exec .rdTxData okLatched = .next t ∧ exec .rdTxData s' = .next t') ∧
    (let s' : State := { okLatched with txq := [0x7E], hostReads := [5] }
     isRx .rdRxData = true ∧ okLatched.cmdErr = s'.cmdErr ∧ okLatched.sameRx s' ∧
        ∃ t t', exec .rdRxData okLatched = .next t ∧ exec .rdRxData s' = .next t') :=
  ⟨⟨rfl, rfl, ⟨rfl, rfl, rfl, rfl, rfl⟩, _, _, rfl, rfl⟩,
   ⟨rfl, rfl, ⟨rfl, rfl, rfl, rfl, rfl, rfl, rfl, rfl, rfl⟩, _, _, rfl, rfl⟩,
   ⟨rfl, rfl, ⟨rfl, rfl, rfl, rfl, rfl⟩, _, _, rfl, rfl⟩,
   rfl, rfl, ⟨rfl, rfl, rfl, rfl, rfl, rfl, rfl, rfl, rfl⟩, _, _, rfl, rfl⟩

/-- Each flag changes on some instruction: all but `rx_done` set, which the next theorem shows. -/
theorem test_witness_FlagsChangeOnlyByTheirWriters :
    (State.reset.txActive = false ∧ ∃ t, exec .txStart State.reset = .next t ∧ t.txActive = true) ∧
    ((filled true 0).txActive = true ∧ ∃ t, exec .sreset (filled true 0) = .next t ∧ t.txActive = false) ∧
    (okLatched.rxDone = true ∧ ∃ t, exec .rxAck okLatched = .next t ∧ t.rxDone = false) ∧
    (∃ t, exec .sdDecode State.reset = .next t ∧ t.sdStatus ≠ State.reset.sdStatus) := by
  have hd := sixteen_le_depth
  refine ⟨⟨rfl, _, rfl, ?_⟩, ⟨rfl, _, rfl, rfl⟩, ⟨rfl, _, rfl, rfl⟩, _, rfl, ?_⟩
  · rcases txStart_cases Config.params State.reset with ⟨h, -⟩ | ⟨-, h, -⟩ | ⟨-, -, h⟩
    · cases h
    · simp [State.reset, State.resetWith] at h; omega
    · rw [h]
  · rcases sdDecode_cases Config.params State.reset with ⟨q, -, h⟩ | ⟨-, w, -, -, h⟩ | ⟨-, -, h⟩ <;> rw [h] <;>
      simp [State.reset, State.resetWith]

theorem test_witness_FlagsChange_rx_done :
    (receiving .opened [0x41]).rxDone = false ∧
    ∃ t, exec (.rxByte 0x7E) (receiving .opened [0x41]) = .next t ∧ t.rxDone = true := ⟨rfl, _, rfl, rfl⟩

theorem test_witness_ScalarOutputsAndTxFcsAreStable :
    Instr.txEnd ≠ .sdDecode ∧ Instr.txEnd ≠ .sreset ∧ Instr.txEnd ≠ .txStart ∧ (∀ b, Instr.txEnd ≠ .txByte b) ∧
    Instr.txEnd ≠ .txRange ∧ ∃ t, exec .txEnd (filled true 5) = .next t := by
  refine ⟨by decide, by decide, by decide, ?_, by decide, _, rfl⟩
  simp

theorem test_witness_ResetRegisterValues :
    readInstr .txFcs = some .rdTxFcs ∧ readInstr .sdMantHi = some .rdSdMantHi := by decide

/-- A state that meets the invariant in the middle of a program: a TX frame open, an RX outcome latched. -/
theorem test_witness_EveryStepKeepsTheInvariant :
    let s : State := { okLatched with txActive := true, txq := [0x7E], hostMoves := [.access (.write 0x00 4 0x00000011)] }
    State.Inv Config.params s ∧ ∃ t, step s = .next t := by
  refine ⟨⟨⟨?_⟩, rxInv_congr okLatched_inv ⟨rfl, rfl, rfl, rfl, rfl, rfl, rfl, rfl, rfl⟩, ?_⟩, _, rfl⟩
  · have := sixteen_le_depth
    simp only [List.length_cons, List.length_nil]
    omega
  · exact ⟨fun _ => ⟨rfl, rfl, rfl, rfl, rfl, rfl, rfl⟩, (fun h => by cases h), (fun h => by cases h),
      (fun h => by cases h)⟩

/-- A command, an illegal word, a reset event and a read: none is a bus error. -/
theorem test_witness_SafeProgramsRunToTheirEnd :
    safeProgram ({ State.reset with hostMoves := [.access (.write 0x00 4 0x00000001),
      .access (.write 0x00 4 0x00000005), .reset, .access (.read 0x04 4)] } : State).hostMoves = true := by decide

theorem test_witness_ProgramRunsItsInstructionsInOrder :
    State.reset.hostMoves = [] ∧ runInstrs [.wrSdTs 7, .rdSdTs] State.reset =
      .next { State.reset with sdTs := 7, hostReads := [7] } := ⟨rfl, rfl⟩

end Sys2Proof.Tests
end

section
/-! The fields of the status and result registers (spec/10_state.md R25 to R37): each register's word as the sum of its
fields at their weights, from which the obligations read the fields off, and the bounds that keep a length in its 16-bit
field. -/

namespace Sys2Proof.Machine

open Sys2Proof.Config (Params)

/-! ### Bounds of the parameters (00_scope.md R7) and of the lengths they limit -/

theorem txqDepth_lt (P : Params) : P.txqDepth < 65536 := Nat.add_lt_add_right P.txqSpare.isLt 16

theorem rxMaxBody_lt (P : Params) : P.rxMaxBody < 65536 := Nat.add_lt_add_right P.rxSpare.isLt 2

theorem TxInv.txq_length_lt {P : Params} {s : State} (h : TxInv P s) : s.txq.length < 65536 :=
  h.fits.trans_lt (txqDepth_lt P)

/-- Only an OK outcome has content, and its body was within the scan bound. -/
theorem RxInv.rxContent_length_lt {P : Params} {s : State} (h : RxInv P s) : s.rxContent.length < 65536 := by
  by_cases hok : s.rxResult = .ok
  · obtain ⟨-, -, hlen⟩ := h.okChecked hok
    have := rxMaxBody_lt P
    omega
  · simp [h.contentOk hok]

/-! ### The registers as numbers -/

variable (s : State)

theorem statusWord_toNat : (statusWord s).toNat =
    s.cmdErr.code.toNat * 256 + s.rxState.code.toNat * 4 + s.rxDone.toNat * 2 + s.txActive.toNat := by
  simp only [statusWord, toNat_append_mul, BitVec.toNat_ofNat, BitVec.toNat_ofBool]
  omega

theorem statusWord_txActive : (statusWord s).getLsbD 0 = s.txActive := by
  simp only [statusWord, BitVec.getLsbD_append]
  simp

theorem statusWord_rxDone : (statusWord s).getLsbD 1 = s.rxDone := by
  simp only [statusWord, BitVec.getLsbD_append]
  simp

theorem txLevelWord_toNat (h : s.txq.length < 65536) : (txLevelWord s).toNat = s.txq.length := by
  simp only [txLevelWord, toNat_append_mul, BitVec.toNat_ofNat]
  omega

theorem txFcsWord_toNat : (txFcsWord s).toNat = s.txAcc.toNat := by
  simp only [txFcsWord, toNat_append_mul]
  simp

theorem rxStatusWord_toNat (h : s.rxContent.length < 65536) : (rxStatusWord s).toNat =
    s.rxContent.length * 65536 + s.rxCause.code.toNat * 16 + s.rxResult.code.toNat := by
  simp only [rxStatusWord, toNat_append_mul, BitVec.toNat_ofNat]
  omega

theorem sdResultWord_toNat : (sdResultWord s).toNat =
    s.sdReclen.toNat * 16777216 + s.sdExp.toNat * 65536 + s.sdWidth.toNat * 256 + s.sdQidx.toNat * 16 +
      s.sdStatus.code.toNat := by
  simp only [sdResultWord, toNat_append_mul, BitVec.toNat_ofNat]
  omega

theorem sdCodeWord_toNat : (sdCodeWord s).toNat = s.sdCode.toNat := by
  simp only [sdCodeWord, toNat_append_mul]
  simp

theorem sdMantLoWord_toNat : (sdMantLoWord s).toNat = s.sdMant.toNat % 4294967296 := by
  simp [sdMantLoWord, BitVec.extractLsb'_toNat]

theorem sdMantHiWord_toNat : (sdMantHiWord s).toNat = s.sdMant.toNat / 4294967296 := by
  have := s.sdMant.isLt
  simp only [sdMantHiWord, BitVec.extractLsb'_toNat, Nat.shiftRight_eq_div_pow]
  omega

end Sys2Proof.Machine
end

section
/-! The obligations of 10_state.md sections 3 and 4: what each register read returns, and the reset values. -/

namespace Sys2Proof.Machine

/-- Settles O42: the word is the sum of its fields, each below the next one's weight. -/
theorem statusRegisterFields : Obligations.StatusRegisterFields := by
  intro s
  have hword := statusWord_toNat s
  have hstate := s.rxState.code.isLt
  have herr := s.cmdErr.code.isLt
  have hdone := s.rxDone.toNat_le
  have hactive := s.txActive.toNat_le
  refine ⟨statusWord s, rfl, statusWord_txActive s, statusWord_rxDone s, ?_, by omega, ?_, by omega⟩
  · calc (statusWord s).toNat / 4 % 4 = s.rxState.code.toNat := by omega
      _ = _ := by cases s.rxState <;> rfl
  · calc (statusWord s).toNat / 256 % 16 = s.cmdErr.code.toNat := by omega
      _ = _ := by cases s.cmdErr <;> rfl

/-- Settles O43: the deframer's invariant bounds the content's length by RX_MAX_BODY, so LEN holds all of it, and
leaves no content unless the outcome is OK. -/
theorem rxStatusRegisterFields : Obligations.RxStatusRegisterFields := by
  intro s hinv
  have hword := rxStatusWord_toNat s hinv.rxContent_length_lt
  have hresult := s.rxResult.code.isLt
  have hcause := s.rxCause.code.isLt
  have hlen : (rxStatusWord s).toNat / 65536 = s.rxContent.length := by omega
  refine ⟨rxStatusWord s, rfl, ?_, by omega, ?_, by omega, hlen, fun hok => ?_⟩
  · calc (rxStatusWord s).toNat % 4 = s.rxResult.code.toNat := by omega
      _ = _ := by cases s.rxResult <;> rfl
  · calc (rxStatusWord s).toNat / 16 % 16 = s.rxCause.code.toNat := by omega
      _ = _ := by cases s.rxCause <;> rfl
  · rw [hlen, hinv.contentOk hok, List.length_nil]

/-- Settles O44: within its capacity the FIFO's length fits LEVEL, and the room check compares with what is left. -/
theorem txRegisterFields : Obligations.TxRegisterFields := by
  intro s hinv
  have hlevel := txLevelWord_toNat s hinv.txq_length_lt
  refine ⟨⟨txLevelWord s, rfl, hlevel, fun out => ?_⟩, txFcsWord s, rfl, txFcsWord_toNat s⟩
  rw [hlevel, roomOk, decide_eq_true_eq, ge_iff_le]

/-- Settles O46: the words are the sums of their fields, each below the next one's weight. -/
theorem sdOutputRegisterFields : Obligations.SdOutputRegisterFields := by
  intro s
  refine ⟨⟨sdResultWord s, rfl, ?_⟩, ⟨sdCodeWord s, rfl, sdCodeWord_toNat s⟩,
    sdMantLoWord s, sdMantHiWord s, rfl, rfl, ?_⟩
  · have hword := sdResultWord_toNat s
    have hstatus := s.sdStatus.code.isLt
    have hqidx := s.sdQidx.isLt
    have hwidth := s.sdWidth.isLt
    have hexp := s.sdExp.isLt
    refine ⟨?_, by omega, by omega, by omega, by omega, by omega⟩
    calc (sdResultWord s).toNat % 4 = s.sdStatus.code.toNat := by omega
      _ = _ := by cases s.sdStatus <;> rfl
  · rw [sdMantHiWord_toNat, sdMantLoWord_toNat, Nat.div_add_mod']

/-- Settles O54: `State.resetWith` lists the values of 10_state.md R46. -/
theorem resetStateElements : Obligations.ResetStateElements := by
  simp [Obligations.ResetStateElements, State.reset, State.resetWith]

end Sys2Proof.Machine
end

section
/-! The bus checks of 20_memory.md R61: what the decoder answers when a check fails and when all pass, and what a step
makes of that answer. -/

namespace Sys2Proof

/-- An offset is unmapped when it is not in the offset column of 10_state.md R23. -/
theorem regAt_eq_none_iff {off : Nat} : regAt off = none ↔ off ∉ Reg.all.map Reg.offset := by
  simp [regAt]

theorem locate_of_size_ne {off n : Nat} (hn : n ≠ 4) : locate off n = .error .size := if_pos hn

theorem locate_of_misaligned {off : Nat} (ha : off % 4 ≠ 0) : locate off 4 = .error .misaligned := by
  simp [locate, ha]

theorem locate_of_unmapped {off : Nat} (ha : off % 4 = 0) (hm : off ∉ Reg.all.map Reg.offset) :
    locate off 4 = .error .unmapped := by
  simp [locate, ha, regAt_eq_none_iff.2 hm]

/-- The checks that do not depend on the direction come first, for a read. -/
theorem decode_read_of_locate_error {off n : Nat} {why : BusCheck} (h : locate off n = .error why) :
    decode (.read off n) = .busError why := by
  simp [decode, h]

/-- The checks that do not depend on the direction come first, for a write. -/
theorem decode_write_of_locate_error {off n : Nat} {why : BusCheck} (v : Word) (h : locate off n = .error why) :
    decode (.write off n v) = .busError why := by
  simp [decode, h]

/-- CMD is the one register that may not be read. -/
theorem decode_read_offset_eq_busError_iff {r : Reg} {why : BusCheck} :
    decode (.read r.offset 4) = .busError why ↔ r = .cmd ∧ why = .readOfWriteOnly := by
  simp only [decode, locate_offset]
  cases r <;> simp [readInstr, eq_comm]

theorem decodeCmd_ne_busError (v : Word) (why : BusCheck) : decodeCmd v ≠ .busError why := by
  rcases decodeCmd_cases v with ⟨c, h⟩ | ⟨-, -, i, -, h⟩ <;> simp [h]

/-- The registers that may not be written are those the access column of R23 marks read-only, popping or not. -/
theorem decode_write_offset_eq_busError_iff {r : Reg} {v : Word} {why : BusCheck} :
    decode (.write r.offset 4 v) = .busError why ↔
      (r.access = .ro ∨ r.access = .roPop) ∧ why = .writeOfReadOnly := by
  simp only [decode, locate_offset]
  cases r <;> simp [decodeWrite, Reg.access, decodeCmd_ne_busError, eq_comm]

end Sys2Proof

namespace Sys2Proof.Machine

/-- An access that decodes to a bus error stops the machine with that error. -/
theorem step_of_busError {s : State} {a : Access} {rest : List HostMove} {why : BusCheck}
    (hm : s.hostMoves = .access a :: rest) (hd : decode a = .busError why) : step s = .fault (.busError why) := by
  simp [step, nextMove, hm, hd]

/-- An access that decodes to no bus error answers a next state, an illegal CMD word included. -/
theorem step_next_of_ne_busError {s : State} {a : Access} {rest : List HostMove}
    (hm : s.hostMoves = .access a :: rest) (hd : ∀ why, decode a ≠ .busError why) : ∃ t, step s = .next t := by
  simp only [step, nextMove, hm]
  cases h : decode a with
  | instr i => exact exec_next i _
  | illegal why => exact ⟨_, rfl⟩
  | busError why => exact absurd h (hd why)

/-- Settles O4: the size, the alignment and the mapping are `locate`'s checks, whatever the direction; an offset that
passes them is some register's, and what is left is that register's access column. -/
theorem busErrorsInOrder : Obligations.BusErrorsInOrder := by
  intro s off n rest mapped readOnly
  have hreg : off ∈ mapped → ∃ r : Reg, r.offset = off := fun h => by
    obtain ⟨r, -, hr⟩ := List.mem_map.1 (show off ∈ Reg.all.map Reg.offset from h)
    exact ⟨r, hr⟩
  have hreadOnly (r : Reg) : r.offset ∈ readOnly ↔ r.access = .ro ∨ r.access = .roPop := by
    cases r <;> decide
  refine ⟨fun hm => ?reads, fun v hm => ?writes⟩
  case reads =>
    split_ifs with hn ha hu h0
    · exact step_of_busError hm (decode_read_of_locate_error (locate_of_size_ne hn))
    · obtain rfl := not_not.1 hn
      exact step_of_busError hm (decode_read_of_locate_error (locate_of_misaligned ha))
    · obtain rfl := not_not.1 hn
      subst h0
      exact step_of_busError hm ((decode_read_offset_eq_busError_iff (r := .cmd)).2 ⟨rfl, rfl⟩)
    · obtain rfl := not_not.1 hn
      obtain ⟨r, rfl⟩ := hreg hu
      refine step_next_of_ne_busError hm fun why hd => h0 ?_
      obtain ⟨rfl, -⟩ := decode_read_offset_eq_busError_iff.1 hd
      rfl
    · obtain rfl := not_not.1 hn
      exact step_of_busError hm (decode_read_of_locate_error (locate_of_unmapped (not_not.1 ha) hu))
  case writes =>
    split_ifs with hn ha hu hro
    · exact step_of_busError hm (decode_write_of_locate_error v (locate_of_size_ne hn))
    · obtain rfl := not_not.1 hn
      exact step_of_busError hm (decode_write_of_locate_error v (locate_of_misaligned ha))
    · obtain rfl := not_not.1 hn
      obtain ⟨r, rfl⟩ := hreg hu
      exact step_of_busError hm (decode_write_offset_eq_busError_iff.2 ⟨(hreadOnly r).1 hro, rfl⟩)
    · obtain rfl := not_not.1 hn
      obtain ⟨r, rfl⟩ := hreg hu
      refine step_next_of_ne_busError hm fun why hd => hro ?_
      obtain ⟨hacc, -⟩ := decode_write_offset_eq_busError_iff.1 hd
      exact (hreadOnly r).2 hacc
    · obtain rfl := not_not.1 hn
      exact step_of_busError hm (decode_write_of_locate_error v (locate_of_unmapped (not_not.1 ha) hu))

end Sys2Proof.Machine
end

section
/-! The words written to CMD (30_encoding.md R80 to R84): which of them the decoder takes for a command, in the terms of
`cmdWordWellFormed` and as numbers, and what a step makes of an illegal one. -/

namespace Sys2Proof

/-! ### Illegal and legal words in the decoder's own terms -/

theorem takesArg_iff {opc : Byte} : takesArg opc = true ↔ opc ∈ [(0x02 : Byte), 0x10] := by
  simp [takesArg]

theorem cmdWordWellFormed_iff {v : Word} : cmdWordWellFormed v = true ↔
    rsvOf v = 0 ∧ opcOf v ∈ assignedOpcodes ∧ (argOf v = 0 ∨ takesArg (opcOf v) = true) := by
  simp [cmdWordWellFormed, takesArg, rsvOf, opcOf, argOf, and_assoc]

/-- The opcode map of R83 holds commands only, never a register access. -/
theorem isCommand_of_commandOf {opc arg : Byte} {i : Instr} (h : commandOf opc arg = some i) :
    i.isCommand = true := by
  unfold commandOf at h
  split_ifs at h <;> cases h <;> rfl

theorem decodeCmd_of_wellFormed {v : Word} (h : cmdWordWellFormed v = true) :
    ∃ i, i.isCommand = true ∧ decodeCmd v = .instr i := by
  obtain ⟨hrsv, hopc, harg⟩ := cmdWordWellFormed_iff.1 h
  obtain ⟨i, hi⟩ := commandOf_ne_none (arg := argOf v) hopc
  have hpass : ¬(argOf v ≠ 0 ∧ takesArg (opcOf v) = false) := by
    rcases harg with harg | harg <;> simp [harg]
  refine ⟨i, isCommand_of_commandOf hi, ?_⟩
  rw [decodeCmd, if_neg (not_not.2 hrsv), hi]
  exact if_neg hpass

theorem decodeCmd_of_not_wellFormed {v : Word} (h : ¬cmdWordWellFormed v = true) :
    ∃ why, decodeCmd v = .illegal why := by
  rcases decodeCmd_cases v with hbad | ⟨hrsv, harg, i, hi, -⟩
  · exact hbad
  · refine absurd (cmdWordWellFormed_iff.2 ⟨hrsv, ?_, harg⟩) h
    by_contra hopc
    simp [commandOf_eq_none hopc] at hi

/-! ### The same in plain numbers -/

/-- Membership in a list of words is membership of their numbers. -/
theorem toNat_mem_map_toNat {n : Nat} {b : BitVec n} {l : List (BitVec n)} :
    b.toNat ∈ l.map BitVec.toNat ↔ b ∈ l :=
  List.mem_map_of_injective fun _ _ => BitVec.eq_of_toNat_eq

theorem cmdWordWellFormed_iff_toNat {v : Word} : cmdWordWellFormed v = true ↔
    v.toNat / 65536 = 0 ∧ v.toNat % 256 ∈ assignedOpcodes.map BitVec.toNat ∧
      (v.toNat / 256 % 256 = 0 ∨ v.toNat % 256 ∈ [(0x02 : Byte), 0x10].map BitVec.toNat) := by
  rw [cmdWordWellFormed_iff, takesArg_iff, ← rsvOf_toNat, ← argOf_toNat, ← opcOf_toNat, toNat_mem_map_toNat,
    toNat_mem_map_toNat, BitVec.toNat_eq (y := 0), BitVec.toNat_eq (y := 0)]
  rfl

theorem decode_write_cmd (v : Word) : decode (.write 0x00 4 v) = decodeCmd v := rfl

end Sys2Proof

namespace Sys2Proof.Machine

/-- An illegal CMD word takes its move and sets `cmd_err` to ILLEGAL, whichever check it fails. -/
theorem step_of_illegal {s : State} {a : Access} {rest : List HostMove} {why : CmdCheck}
    (hm : s.hostMoves = .access a :: rest) (hd : decode a = .illegal why) :
    step s = .next { s with hostMoves := rest, cmdErr := .illegal } := by
  simp [step, nextMove, hm, hd, State.failWith]

/-- Settles O3: the three cases of R84 are the failure of `cmdWordWellFormed`, which decides whether the decoder answers
an illegal word or a command. -/
theorem illegalWordsFailAndLegalWordsAreCommands : Obligations.IllegalWordsFailAndLegalWordsAreCommands := by
  intro s v rest hm rsv arg opc illegal
  have hillegal : illegal ↔ ¬cmdWordWellFormed v = true := by
    rw [cmdWordWellFormed_iff_toNat, not_and_or, not_and_or, not_or]
    rfl
  rw [hillegal, not_not, decode_write_cmd]
  refine ⟨fun hbad => ?_, decodeCmd_of_wellFormed⟩
  obtain ⟨why, hwhy⟩ := decodeCmd_of_not_wellFormed hbad
  exact step_of_illegal hm hwhy

end Sys2Proof.Machine
end

section
/-! Escaping (40_frame_primitives.md R101, R102): the escaped set as a condition on the byte. -/

namespace Sys2Proof.Machine

theorem mem_escapedSet_iff {b : Byte} :
    b ∈ escapedSet ↔ b = 0x7E ∨ b = 0x7D ∨ b = 0x11 ∨ b = 0x12 ∨ b = 0x13 := by
  simp [escapedSet]

/-- Settles O20: the stated condition is membership in the escaped set, which `esc` decides on. -/
theorem escapeOfOneByte : Obligations.EscapeOfOneByte := by
  intro b
  split
  case isTrue hset => exact esc_of_mem (mem_escapedSet_iff.2 hset)
  case isFalse hset => exact esc_of_not_mem (mt mem_escapedSet_iff.1 hset)

end Sys2Proof.Machine
end

section
/-! The TX framer (41_tx_framer.md sections 1 and 2): the word of a command decodes to it, what each operation does when
its state check fails, when its room check fails and when both pass, and the obligations on the five instructions. -/

namespace Sys2Proof

/-- A legal command word decodes to its command: 30_encoding.md R80 with no reserved bit set. -/
theorem decodeCmd_cmdWord {opc arg : Byte} {i : Instr} (hi : commandOf opc arg = some i)
    (harg : arg = 0 ∨ takesArg opc = true) : decodeCmd (cmdWord opc arg) = .instr i := by
  have hpass : ¬(arg ≠ 0 ∧ takesArg opc = false) := by
    rcases harg with harg | harg <;> simp [harg]
  rw [decodeCmd, rsvOf_cmdWord, if_neg (not_not.2 rfl), opcOf_cmdWord, argOf_cmdWord, hi]
  exact if_neg hpass

/-- The word of R122: the argument byte stands above the opcode. -/
theorem or_shiftLeft_eq_cmdWord (b : Byte) : (0x00000002 ||| b.setWidth 32 <<< 8 : Word) = cmdWord 0x02 b := by
  revert b; decide

theorem decode_txByte_word (b : Byte) :
    decode (.write 0x00 4 (0x00000002 ||| b.setWidth 32 <<< 8)) = .instr (.txByte b) := by
  rw [or_shiftLeft_eq_cmdWord, decode_write_cmd]
  exact decodeCmd_cmdWord rfl (.inr rfl)

end Sys2Proof

namespace Sys2Proof.Machine

open Sys2Proof.Config (Params)

section Checks

variable {P : Params} {s : State} {bs : List Byte}

/-! ### TX_START, by its two checks -/

theorem txStart_of_active (ha : s.txActive = true) : txStart P s = s.failWith .txState := if_pos ha

theorem txStart_of_full (ha : s.txActive = false) (hr : P.txqDepth < s.txq.length + 1) :
    txStart P s = s.failWith .txFull := by
  obtain ⟨h, -⟩ | ⟨-, -, h⟩ | ⟨-, h, -⟩ := txStart_cases P s
  · simp [ha] at h
  · exact h
  · omega

theorem txStart_of_room (ha : s.txActive = false) (hr : s.txq.length + 1 ≤ P.txqDepth) :
    txStart P s = { s with txq := s.txq ++ [delim], txAcc := P.fcsInit, txActive := true, cmdErr := .ok } := by
  obtain ⟨h, -⟩ | ⟨-, h, -⟩ | ⟨-, -, h⟩ := txStart_cases P s
  · simp [ha] at h
  · omega
  · exact h

/-! ### TX_BYTE and TX_RANGE, by their two checks -/

theorem txContent_of_not_active (ha : s.txActive = false) : txContent P bs s = s.failWith .txState := if_pos ha

theorem txContent_of_full (hb : bs ≠ []) (ha : s.txActive = true)
    (hr : P.txqDepth < s.txq.length + (escs bs).length) : txContent P bs s = s.failWith .txFull := by
  obtain ⟨h, -⟩ | ⟨-, -, h⟩ | ⟨-, h, -⟩ := txContent_cases P hb s
  · simp [ha] at h
  · exact h
  · omega

theorem txContent_of_room (hb : bs ≠ []) (ha : s.txActive = true)
    (hr : s.txq.length + (escs bs).length ≤ P.txqDepth) :
    txContent P bs s = { s with txq := s.txq ++ escs bs, txAcc := fcsFold P s.txAcc bs, cmdErr := .ok } := by
  obtain ⟨h, -⟩ | ⟨-, h, -⟩ | ⟨-, -, h⟩ := txContent_cases P hb s
  · simp [ha] at h
  · omega
  · exact h

/-! ### TX_END, by its two checks -/

theorem txEnd_of_not_active (ha : s.txActive = false) : txEnd P s = s.failWith .txState := if_pos ha

theorem txEnd_of_full (ha : s.txActive = true) (hr : P.txqDepth < s.txq.length + (txTrailer P s).length) :
    txEnd P s = s.failWith .txFull := by
  obtain ⟨h, -⟩ | ⟨-, -, h⟩ | ⟨-, h, -⟩ := txEnd_cases P s
  · simp [ha] at h
  · exact h
  · omega

theorem txEnd_of_room (ha : s.txActive = true) (hr : s.txq.length + (txTrailer P s).length ≤ P.txqDepth) :
    txEnd P s = { s with txq := s.txq ++ txTrailer P s, txActive := false, cmdErr := .ok } := by
  obtain ⟨h, -⟩ | ⟨-, h, -⟩ | ⟨-, -, h⟩ := txEnd_cases P s
  · simp [ha] at h
  · omega
  · exact h

/-! ### The read of TX_DATA, by the FIFO's content -/

theorem readTxData_of_nil (hq : s.txq = []) : readTxData s = s.returnRead noByte := by
  simp [readTxData, State.popTx, hq]

theorem readTxData_of_cons {b : Byte} {rest : List Byte} (hq : s.txq = b :: rest) :
    readTxData s = State.returnRead { s with txq := rest } (validByte b) := by
  simp [readTxData, State.popTx, hq]

end Checks

/-! ### What is pushed, written out -/

theorem escs_singleton (b : Byte) : escs [b] = esc b := List.append_nil _

/-- `escs` with ESC of R102 and the escaped set of R101 written out. -/
theorem escs_eq_flatMap_ite (l : List Byte) :
    escs l = l.flatMap fun b => if b ∈ [(0x7E : Byte), 0x7D, 0x11, 0x12, 0x13] then [0x7D, b ^^^ 0x20] else [b] :=
  escs_eq_flatMap l

/-! ### The obligations -/

/-- Settles O10: the state check comes before the room check for the one delimiter. -/
theorem txStartOpensAFrame : Obligations.TxStartOpensAFrame := by
  refine ⟨rfl, fun s => ⟨fun ha hr => ?_, fun ha => ?_, fun ha hr => ?_⟩⟩
  · exact congrArg Host.Outcome.next (txStart_of_room ha hr)
  · exact congrArg Host.Outcome.next (txStart_of_active ha)
  · exact congrArg Host.Outcome.next (txStart_of_full ha hr)

/-- Settles O11: TX_BYTE is the content operation on one byte, whose escape is a pair or the byte itself, so the room
check is for two bytes or for one. -/
theorem txByteEscapesAndAccumulates : Obligations.TxByteEscapesAndAccumulates := by
  intro b
  refine ⟨decode_txByte_word b, fun s => ?_⟩
  have hpush {out : List Byte} (hout : escs [b] = out) (ha : s.txActive = true)
      (hr : s.txq.length + out.length ≤ Config.params.txqDepth) : exec (.txByte b) s = .next { s with
        txq := s.txq ++ out, txAcc := Config.params.fcsUpd s.txAcc b, cmdErr := .ok } := by
    subst hout
    exact congrArg Host.Outcome.next (txContent_of_room (List.cons_ne_nil _ _) ha hr)
  have hfull {out : List Byte} (hout : escs [b] = out) (ha : s.txActive = true)
      (hr : Config.params.txqDepth < s.txq.length + out.length) :
      exec (.txByte b) s = .next { s with cmdErr := .txFull } := by
    subst hout
    exact congrArg Host.Outcome.next (txContent_of_full (List.cons_ne_nil _ _) ha hr)
  have hpair (h : b ∈ escapedSet) : escs [b] = [0x7D, b ^^^ 0x20] := (escs_singleton b).trans (esc_of_mem h)
  have hplain (h : b ∉ escapedSet) : escs [b] = [b] := (escs_singleton b).trans (esc_of_not_mem h)
  exact ⟨fun ha he hr => hpush (hpair he) ha hr, fun ha he hr => hpush (hplain he) ha hr,
    fun ha he hr => hfull (hpair he) ha hr, fun ha he hr => hfull (hplain he) ha hr,
    fun ha => congrArg Host.Outcome.next (txContent_of_not_active ha)⟩

/-- Settles O12: TX_RANGE is the content operation on the eight bytes of the bounds. -/
theorem txRangeSerialisesTheBounds : Obligations.TxRangeSerialisesTheBounds := by
  refine ⟨rfl, fun s => ?_⟩
  intro bs out
  have hout : escs (rangeBytes s) = out := escs_eq_flatMap_ite bs
  rw [← hout]
  refine ⟨fun ha hr => ?_, fun ha hr => ?_, fun ha => ?_⟩
  · exact congrArg Host.Outcome.next (txContent_of_room (rangeBytes_ne_nil s) ha hr)
  · exact congrArg Host.Outcome.next (txContent_of_full (rangeBytes_ne_nil s) ha hr)
  · exact congrArg Host.Outcome.next (txContent_of_not_active ha)

/-- Settles O14: what is pushed is the trailer, the escaped checksum and the delimiter. -/
theorem txEndAppendsTheChecksum : Obligations.TxEndAppendsTheChecksum := by
  refine ⟨rfl, fun s => ?_⟩
  intro f out
  have hout : txTrailer Config.params s = out := congrArg (· ++ [delim]) (escs_eq_flatMap_ite (fcsBytes f))
  rw [← hout]
  refine ⟨fun ha hr => ?_, fun ha hr => ?_, fun ha => ?_⟩
  · exact congrArg Host.Outcome.next (txEnd_of_room ha hr)
  · exact congrArg Host.Outcome.next (txEnd_of_full ha hr)
  · exact congrArg Host.Outcome.next (txEnd_of_not_active ha)

/-- Settles O15: the read returns the head with VALID = 1 and takes it, or the word 0. -/
theorem readTxDataPopsTheHead : Obligations.ReadTxDataPopsTheHead := by
  refine ⟨rfl, fun s => ⟨fun b rest hq => ?_, fun hq => ?_⟩⟩
  · rw [← validByte_eq]
    exact congrArg Host.Outcome.next (readTxData_of_cons hq)
  · exact congrArg Host.Outcome.next (readTxData_of_nil hq)

end Sys2Proof.Machine
end

section
/-! The RX deframer (42_rx_deframer.md sections 1 and 2): what a body byte and a closing delimiter do by the length of the
body, what the read of RX_DATA does by what is latched, and the obligations on RX_BYTE, RX_ACK and RD RX_DATA. -/

namespace Sys2Proof.Machine

open Sys2Proof.Config (Params)

section Cases

variable {P : Params} {s : State}

/-! ### A body byte -/

/-- A wire byte that stands for the body byte `v` (42_rx_deframer.md R141), in OPEN or after the escape byte, appends
`v` in OPEN. -/
theorem rxConsume_of_bodyByte {w v : Byte}
    (h : (s.rxState = .opened ∧ w ≠ delim ∧ w ≠ escb ∧ v = w) ∨ (s.rxState = .esc ∧ w ≠ delim ∧ v = w ^^^ xmask)) :
    rxConsume P w s = rxAppend P v { s with rxState := .opened } := by
  rcases h with ⟨hs, hd, he, rfl⟩ | ⟨hs, hd, rfl⟩
  · have hsame : { s with rxState := .opened } = s := by rw [← hs]
    simp [rxConsume, hs, hd, he, hsame]
  · simp [rxConsume, hs, hd]

/-! ### A delimiter in OPEN, by the length of the body -/

theorem rxConsume_delim_of_opened (hs : s.rxState = .opened) : rxConsume P delim s = rxClose P s := by
  simp [rxConsume, hs]

theorem rxClose_of_nil (hb : s.rxBody = []) : rxClose P s = s := by
  simp [rxClose, hb]

theorem rxClose_of_singleton {b : Byte} (hb : s.rxBody = [b]) :
    rxClose P s = s.latch .framingError .shortBody [] 0 0 := by
  simp [rxClose, hb]

/-- The two outcomes of VERIFY differ in the kind and the content only. -/
theorem rxClose_of_append_two {c : List Byte} {lo hi : Byte} (hb : s.rxBody = c ++ [lo, hi]) :
    rxClose P s = s.latch (if le16 lo hi = fcs16 P c then .ok else .checksumMismatch) .none
      (if le16 lo hi = fcs16 P c then c else []) (le16 lo hi) (fcs16 P c) := by
  have hverify : rxClose P s = rxVerify P s := by simp [rxClose, hb]
  rw [hverify, rxVerify_append hb]
  split <;> rfl

/-! ### RX_ACK and the read of RX_DATA, by what is latched -/

theorem rxAck_of_done (hd : s.rxDone = true) : rxAck s = s.unlatch.succeed := if_neg (by simp [hd])

theorem rxAck_of_idle (hd : s.rxDone = false) : rxAck s = s.failWith .rxState := if_pos hd

theorem nextContent_eq_none :
    s.nextContent = none ↔ s.rxDone = false ∨ s.rxResult ≠ .ok ∨ s.rxContent.length ≤ s.rxRd := by
  cases hd : s.rxDone <;> simp [State.nextContent, hd, Decidable.imp_iff_not_or]

theorem readRxData_of_some {b : Byte} (h : s.nextContent = some b) :
    readRxData s = State.returnRead { s with rxRd := s.rxRd + 1 } (validByte b) := by
  simp [readRxData, h]

theorem readRxData_of_none (h : s.nextContent = none) : readRxData s = s.returnRead noByte := by
  simp [readRxData, h]

end Cases

/-- RX_BYTE with nothing latched, through the state `t` that consuming the byte gives. -/
theorem exec_rxByte_of_idle {w : Byte} {s t : State} (hd : s.rxDone = false)
    (h : rxConsume Config.params w s = t) : exec (.rxByte w) s = .next t.succeed := by
  rw [← h]
  exact congrArg Host.Outcome.next (rxByte_of_idle w hd)

/-! ### The obligations -/

/-- Settles O24: the byte is appended in OPEN, which keeps it or latches OVERFLOW by the length of the body. -/
theorem rxBodyByteIsKeptOrOverflows : Obligations.RxBodyByteIsKeptOrOverflows := by
  intro w v s hd hbyte
  have happend : rxConsume Config.params w s = rxAppend Config.params v { s with rxState := .opened } :=
    rxConsume_of_bodyByte hbyte
  exact ⟨fun hroom => exec_rxByte_of_idle hd (happend.trans (rxAppend_of_room v hroom)),
    fun hfull => exec_rxByte_of_idle hd (happend.trans (rxAppend_of_full v hfull))⟩

/-- Settles O25: the delimiter is CLOSE, which goes by the length of the body. -/
theorem rxDelimiterClosesTheFrame : Obligations.RxDelimiterClosesTheFrame := by
  intro s hd hs
  have hclose : rxConsume Config.params 0x7E s = rxClose Config.params s := rxConsume_delim_of_opened hs
  exact ⟨fun hb => exec_rxByte_of_idle hd (hclose.trans (rxClose_of_nil hb)),
    fun b hb => exec_rxByte_of_idle hd (hclose.trans (rxClose_of_singleton hb)),
    fun c lo hi hb => exec_rxByte_of_idle hd (hclose.trans (rxClose_of_append_two hb))⟩

/-- Settles O27: RX_ACK is the release of the latch, or the failure when nothing is latched. -/
theorem rxAckReleasesTheOutcome : Obligations.RxAckReleasesTheOutcome :=
  ⟨rfl, fun _ => ⟨fun hd => congrArg Host.Outcome.next (rxAck_of_done hd),
    fun hd => congrArg Host.Outcome.next (rxAck_of_idle hd)⟩⟩

/-- Settles O28: the three ways of returning 0 are those in which there is no next content byte. -/
theorem readRxDataReturnsContentOnce : Obligations.ReadRxDataReturnsContentOnce := by
  refine ⟨rfl, fun s => ⟨fun b hd hok hb => ?_, fun hnone => ?_⟩⟩
  · rw [← validByte_eq]
    exact congrArg Host.Outcome.next (readRxData_of_some (nextContent_eq_some.2 ⟨hd, hok, hb⟩))
  · exact congrArg Host.Outcome.next (readRxData_of_none (nextContent_eq_none.2 hnone))

end Sys2Proof.Machine
end

section
/-! The scalar decoder (spec/43_scalar_decoder.md R161 to R163): the quantity table as rows of numbers, the row a code
is recognised as, and what SD_DECODE answers for a recognised code and for one that is not. -/

namespace Sys2Proof.Machine

open Sys2Proof.Config (Params)

/-- A row of the quantity table as R161 prints it: index, code, width and the byte that holds exp. -/
def Quantity.row (P : Params) (q : Quantity) : BitVec 4 × Code × Byte × Byte :=
  (q.index, q.code P, q.width, BitVec.ofInt 8 q.exp)

theorem Quantity.row_eq {P : Params} {q : Quantity} {i : BitVec 4} {code : Code} {w e : Byte} :
    q.row P = (i, code, w, e) ↔ q.index = i ∧ q.code P = code ∧ q.width = w ∧ BitVec.ofInt 8 q.exp = e := by
  simp only [Quantity.row, Prod.mk.injEq]

section Decoding

variable {P : Params} {s : State}

/-- The row of least index: a row that holds the code, before which none does. -/
theorem recognise_of_all_eq_append {code : Code} {pre post : List Quantity} {q : Quantity}
    (hall : Quantity.all = pre ++ q :: post) (hpre : ∀ p ∈ pre, p.code P ≠ code) (hq : q.code P = code) :
    recognise P code = some q :=
  List.find?_eq_some_iff_append.2 ⟨by simpa using hq, pre, post, hall, by simpa using hpre⟩

/-- The first printed row with the code is the row of the quantity it is recognised as. -/
theorem exists_recognise_of_rows_eq_append {code : Code} {pre post : List (BitVec 4 × Code × Byte × Byte)}
    {r : BitVec 4 × Code × Byte × Byte} (hrows : Quantity.all.map (Quantity.row P) = pre ++ r :: post)
    (hpre : ∀ p ∈ pre, p.2.1 ≠ code) (hr : r.2.1 = code) : ∃ q, q.row P = r ∧ recognise P code = some q := by
  obtain ⟨before, rest, hall, rfl, hrest⟩ := List.map_eq_append_iff.1 hrows
  obtain ⟨q, after, rfl, rfl, -⟩ := List.map_eq_cons_iff.1 hrest
  exact ⟨q, rfl, recognise_of_all_eq_append hall (fun p hp => hpre _ (List.mem_map_of_mem hp)) hr⟩

theorem recognise_eq_none_of_rows {code : Code} (h : ∀ r ∈ Quantity.all.map (Quantity.row P), r.2.1 ≠ code) :
    recognise P code = none :=
  recognise_eq_none.2 fun q => h _ (List.mem_map_of_mem (by cases q <;> decide))

theorem shapeWidth_eq_some {shape w : Byte} :
    shapeWidth P shape = some w ↔ (shape = P.shapeLong ∧ w = 8) ∨ (shape = P.shapeInt ∧ w = 4) := by
  by_cases hlong : shape = P.shapeLong
  · simp [shapeWidth, hlong, (shapeInt_ne_shapeLong P).symm, eq_comm]
  · by_cases hint : shape = P.shapeInt
    · simp [shapeWidth, hint, shapeInt_ne_shapeLong, eq_comm]
    · simp [shapeWidth, hlong, hint]

theorem shapeWidth_eq_none {shape : Byte} :
    shapeWidth P shape = none ↔ shape ≠ P.shapeLong ∧ shape ≠ P.shapeInt := by
  simp [shapeWidth, ite_eq_iff]

theorem sdDecode_of_recognise {q : Quantity} (h : recognise P (tagCode s.sdTag) = some q) :
    sdDecode P s = { s with
      sdCode := tagCode s.sdTag, sdTstamp := s.sdTs, sdStatus := .recognized, sdQidx := q.index, sdWidth := q.width,
      sdExp := BitVec.ofInt 8 q.exp, sdReclen := 8 + q.width, sdMant := rawValue P q s, cmdErr := .ok } := by
  obtain ⟨q', hq', hs⟩ | ⟨hnone, -⟩ | ⟨hnone, -⟩ := sdDecode_cases P s
  · cases h.symm.trans hq'
    exact hs
  · cases h.symm.trans hnone
  · cases h.symm.trans hnone

/-- The three cases of R162 written out: LONG, INT, and any other shape. -/
theorem sdDecode_of_unrecognised (h : recognise P (tagCode s.sdTag) = none) :
    sdDecode P s = { s with
      sdCode := tagCode s.sdTag, sdTstamp := s.sdTs,
      sdStatus := if tagShape s.sdTag = P.shapeLong ∨ tagShape s.sdTag = P.shapeInt then .skip else .shapeError,
      sdQidx := 0, sdExp := 0, sdMant := 0,
      sdWidth := if tagShape s.sdTag = P.shapeLong then 8 else if tagShape s.sdTag = P.shapeInt then 4 else 0,
      sdReclen := if tagShape s.sdTag = P.shapeLong then 16 else if tagShape s.sdTag = P.shapeInt then 12 else 0,
      cmdErr := .ok } := by
  obtain ⟨q, hq, -⟩ | ⟨-, w, hw, -, hs⟩ | ⟨-, hw, hs⟩ := sdDecode_cases P s
  · cases h.symm.trans hq
  · obtain ⟨hlong, rfl⟩ | ⟨hint, rfl⟩ := shapeWidth_eq_some.1 hw
    · simp [hs, hlong]
    · simp [hs, hint, shapeInt_ne_shapeLong]
  · obtain ⟨hlong, hint⟩ := shapeWidth_eq_none.1 hw
    simp [hs, hlong, hint]

end Decoding

/-- Settles O35: the stated table is `Quantity.all` row by row, so its first row with the code is the one `recognise`
finds; without such a row the shape decides. -/
theorem sdDecodeFollowsTheTables : Obligations.SdDecodeFollowsTheTables := by
  refine ⟨rfl, fun s => ⟨fun pre post i w e htable hpre => ?_, fun hnone => ?_⟩⟩
  · obtain ⟨q, hrow, hq⟩ := exists_recognise_of_rows_eq_append (P := Config.params) htable hpre rfl
    obtain ⟨rfl, -, rfl, rfl⟩ := Quantity.row_eq.1 hrow
    exact congrArg Host.Outcome.next (sdDecode_of_recognise hq)
  · exact congrArg Host.Outcome.next (sdDecode_of_unrecognised (recognise_eq_none_of_rows hnone))

end Sys2Proof.Machine
end

section
/-! Control and plain registers (44_control.md R180 to R183): which instruction an access at a register's own offset is,
what a plain read does to the state and to what a later read returns, and the obligations on NOP, SRESET, the plain writes
and the plain reads. -/

namespace Sys2Proof

/-- An access at a register's own offset passes the bus checks of 20_memory.md R61 that do not depend on the direction. -/
theorem decode_write_offset (r : Reg) (v : Word) : decode (.write r.offset 4 v) = decodeWrite v r := by
  simp [decode]

theorem decode_read_offset {r : Reg} {i : Instr} (h : readInstr r = some i) :
    decode (.read r.offset 4) = .instr i := by
  simp [decode, h]

end Sys2Proof

namespace Sys2Proof.Machine

/-! ### Reading a register -/

/-- The two lists of readable registers, the reads and the values, hold the same registers. -/
theorem exists_regValue_of_readInstr {r : Reg} {i : Instr} (h : readInstr r = some i) (s : State) :
    ∃ v, regValue s r = some v := by
  cases r
  case cmd => cases h
  all_goals exact ⟨_, rfl⟩

/-- What the host has read is no element of the block, so no register shows it. -/
@[simp] theorem regValue_returnRead (s : State) (v : Word) (r : Reg) : regValue (s.returnRead v) r = regValue s r := by
  cases r <;> rfl

theorem returnRead_returnRead (s : State) (u v : Word) :
    (s.returnRead u).returnRead v = { s with hostReads := s.hostReads ++ [u, v] } := by
  simp [State.returnRead]

/-- A plain read does nothing but return the register's value: all reads but the two that pop. -/
theorem exec_plainRead {r : Reg} {i : Instr} {s : State} {v : Word} (htx : r ≠ .txData) (hrx : r ≠ .rxData)
    (hi : readInstr r = some i) (hv : regValue s r = some v) : exec i s = .next (s.returnRead v) := by
  cases r
  case cmd => cases hi
  case txData => exact absurd rfl htx
  case rxData => exact absurd rfl hrx
  all_goals cases hi; cases hv; rfl

/-! ### The obligations -/

/-- Settles O37: the word's opcode is NOP's, whose meaning is the end of every command that does not fail. -/
theorem nopOnlyClearsCmdErr : Obligations.NopOnlyClearsCmdErr := ⟨rfl, fun _ => rfl⟩

/-- Settles O38: the meaning of SRESET is `resetBlock`, as that of the reset event is. -/
theorem sresetEqualsReset : Obligations.SresetEqualsReset := ⟨rfl, fun _ => rfl⟩

/-- Settles O39: each offset is its register's, and the meaning of a plain write is the update of that one element. -/
theorem plainWritesStoreTheWord : Obligations.PlainWritesStoreTheWord := fun v _ =>
  ⟨decode_write_offset .sdTag v, decode_write_offset .sdTs v, decode_write_offset .sdValLo v,
    decode_write_offset .sdValHi v, decode_write_offset .rangeStart v, decode_write_offset .rangeEnd v,
    rfl, rfl, rfl, rfl, rfl, rfl⟩

/-- Settles O40: the first read leaves the register's value as it was, so the second returns it again. -/
theorem plainReadsReturnTheRegister : Obligations.PlainReadsReturnTheRegister := by
  intro s r i htx hrx hi
  obtain ⟨v, hv⟩ := exists_regValue_of_readInstr hi s
  have hagain : exec i (s.returnRead v) = .next ((s.returnRead v).returnRead v) :=
    exec_plainRead htx hrx hi ((regValue_returnRead s v r).trans hv)
  rw [returnRead_returnRead] at hagain
  exact ⟨decode_read_offset hi, v, hv, exec_plainRead htx hrx hi hv, hagain⟩

end Sys2Proof.Machine
end

section
/-! Decoding and encoding (30_encoding.md R80 to R86, 10_state.md R23): an instruction is a command, the read of a register
or the write of one, and each of the three kinds has one access. -/

namespace Sys2Proof

/-! ### The three kinds of instruction -/

/-- Every instruction is a command of the opcode map, with an argument only if it takes one, the read of a register, or
the plain write of one. -/
theorem Instr.cases_access (i : Instr) :
    (∃ opc arg, commandOf opc arg = some i ∧ opc ∈ assignedOpcodes ∧ (arg = 0 ∨ takesArg opc = true)) ∨
    (∃ r ∈ Reg.all, readInstr r = some i) ∨ (∃ r v, r ≠ .cmd ∧ decodeWrite v r = .instr i) := by
  cases i
  case nop => exact .inl ⟨0x00, 0, rfl, by decide, .inl rfl⟩
  case txStart => exact .inl ⟨0x01, 0, rfl, by decide, .inl rfl⟩
  case txByte b => exact .inl ⟨0x02, b, rfl, by decide, .inr rfl⟩
  case txRange => exact .inl ⟨0x03, 0, rfl, by decide, .inl rfl⟩
  case txEnd => exact .inl ⟨0x04, 0, rfl, by decide, .inl rfl⟩
  case rxByte w => exact .inl ⟨0x10, w, rfl, by decide, .inr rfl⟩
  case rxAck => exact .inl ⟨0x11, 0, rfl, by decide, .inl rfl⟩
  case sdDecode => exact .inl ⟨0x20, 0, rfl, by decide, .inl rfl⟩
  case sreset => exact .inl ⟨0xFF, 0, rfl, by decide, .inl rfl⟩
  case wrSdTag v => exact .inr (.inr ⟨.sdTag, v, nofun, rfl⟩)
  case wrSdTs v => exact .inr (.inr ⟨.sdTs, v, nofun, rfl⟩)
  case wrSdValLo v => exact .inr (.inr ⟨.sdValLo, v, nofun, rfl⟩)
  case wrSdValHi v => exact .inr (.inr ⟨.sdValHi, v, nofun, rfl⟩)
  case wrRangeStart v => exact .inr (.inr ⟨.rangeStart, v, nofun, rfl⟩)
  case wrRangeEnd v => exact .inr (.inr ⟨.rangeEnd, v, nofun, rfl⟩)
  all_goals exact .inr (.inl (by decide))

/-! ### Instructions and their accesses -/

theorem decode_cmdAccess {opc arg : Byte} {i : Instr} (hi : commandOf opc arg = some i)
    (harg : arg = 0 ∨ takesArg opc = true) : decode (cmdAccess opc arg) = .instr i :=
  (decode_write_cmd _).trans (decodeCmd_cmdWord hi harg)

/-- A command that takes no argument byte is encoded with argument 0, which is the one its word carried. -/
theorem encode_of_commandOf {opc arg : Byte} {i : Instr} (hi : commandOf opc arg = some i)
    (harg : arg = 0 ∨ takesArg opc = true) : encode i = cmdAccess opc arg := by
  rcases harg with rfl | htakes
  · unfold commandOf at hi
    split_ifs at hi <;> subst opc <;> cases hi <;> rfl
  · obtain rfl | rfl : opc = 0x02 ∨ opc = 0x10 := by simpa [takesArg] using htakes
    · cases hi
      rfl
    · cases hi
      rfl

theorem encode_of_decodeCmd {v : Word} {i : Instr} (h : decodeCmd v = .instr i) : encode i = .write 0x00 4 v := by
  rcases decodeCmd_cases v with ⟨why, hbad⟩ | ⟨hrsv, harg, j, hj, hv⟩
  · rw [hbad] at h
    cases h
  · cases hv.symm.trans h
    rw [encode_of_commandOf hj harg, cmdAccess, ← eq_cmdWord hrsv]

theorem encode_of_readInstr {r : Reg} {i : Instr} (h : readInstr r = some i) : encode i = .read r.offset 4 := by
  cases r <;> cases h <;> rfl

theorem encode_of_decodeWrite {r : Reg} {v : Word} {i : Instr} (h : decodeWrite v r = .instr i) :
    encode i = .write r.offset 4 v := by
  cases r
  case cmd => exact encode_of_decodeCmd h
  all_goals cases h
  all_goals rfl

theorem exists_readInstr_of_decode {off n : Nat} {i : Instr} (h : decode (.read off n) = .instr i) :
    ∃ r : Reg, off = r.offset ∧ n = 4 ∧ readInstr r = some i := by
  cases hl : locate off n with
  | error why => simp [decode_read_of_locate_error hl] at h
  | ok r =>
    obtain ⟨rfl, rfl⟩ := locate_ok hl
    refine ⟨r, rfl, rfl, ?_⟩
    cases hr : readInstr r with
    | none => simp [decode, hr] at h
    | some j => simpa [decode_read_offset hr] using h

theorem exists_decodeWrite_of_decode {off n : Nat} {v : Word} {i : Instr} (h : decode (.write off n v) = .instr i) :
    ∃ r : Reg, off = r.offset ∧ n = 4 ∧ decodeWrite v r = .instr i := by
  cases hl : locate off n with
  | error why => simp [decode_write_of_locate_error v hl] at h
  | ok r =>
    obtain ⟨rfl, rfl⟩ := locate_ok hl
    exact ⟨r, rfl, rfl, (decode_write_offset r v).symm.trans h⟩

/-! ### Well-formed accesses -/

/-- The column of readable offsets is that of the registers that have a read. -/
theorem exists_readInstr_of_mem {off : Nat} (h : off ∈ readableOffsets) :
    ∃ (r : Reg) (i : Instr), off = r.offset ∧ readInstr r = some i := by
  have hcol : readableOffsets = (Reg.all.filter fun r => (readInstr r).isSome).map Reg.offset := rfl
  rw [hcol, List.mem_map] at h
  obtain ⟨r, hr, rfl⟩ := h
  obtain ⟨i, hi⟩ := Option.isSome_iff_exists.1 (List.mem_filter.1 hr).2
  exact ⟨r, i, rfl, hi⟩

/-- The column of writable offsets is CMD's and those of the registers whose every write is an instruction. -/
theorem exists_decodeWrite_of_mem {off : Nat} (v : Word) (h : off ∈ writableOffsets) :
    ∃ r : Reg, off = r.offset ∧ (r = .cmd ∨ ∃ i, decodeWrite v r = .instr i) := by
  have hcol : writableOffsets = (Reg.all.filter fun r => r.access = .wo ∨ r.access = .rw).map Reg.offset := rfl
  rw [hcol, List.mem_map] at h
  obtain ⟨r, hr, rfl⟩ := h
  refine ⟨r, rfl, ?_⟩
  have haccess := (List.mem_filter.1 hr).2
  cases r <;> simp [Reg.access] at haccess <;> simp [decodeWrite]

theorem exists_decode_of_wellFormed {a : Access} (h : a.wellFormed = true) : ∃ i, decode a = .instr i := by
  cases a with
  | read off n =>
    obtain ⟨⟨rfl, -⟩, hoff⟩ : (n = 4 ∧ off % 4 = 0) ∧ off ∈ readableOffsets := by simpa [Access.wellFormed] using h
    obtain ⟨r, i, rfl, hi⟩ := exists_readInstr_of_mem hoff
    exact ⟨i, decode_read_offset hi⟩
  | write off n v =>
    obtain ⟨⟨⟨rfl, -⟩, hoff⟩, hword⟩ : ((n = 4 ∧ off % 4 = 0) ∧ off ∈ writableOffsets) ∧
        (off ≠ 0 ∨ cmdWordWellFormed v = true) := by simpa [Access.wellFormed] using h
    obtain ⟨r, rfl, rfl | ⟨i, hi⟩⟩ := exists_decodeWrite_of_mem v hoff
    · obtain ⟨i, -, hi⟩ := decodeCmd_of_wellFormed (hword.resolve_left (not_not.2 rfl))
      exact ⟨i, (decode_write_cmd v).trans hi⟩
    · exact ⟨i, (decode_write_offset r v).trans hi⟩

theorem encode_wellFormed (i : Instr) : (encode i).wellFormed = true := by
  obtain ⟨opc, arg, hi, hopc, harg⟩ | ⟨r, -, hi⟩ | ⟨r, v, hr, hi⟩ := i.cases_access
  · rw [encode_of_commandOf hi harg]
    exact Laws.EncodeFits.cmdAccess_wellFormed opc arg hopc (harg.imp_right takesArg_iff.1)
  · rw [encode_of_readInstr hi]
    cases r <;> cases hi <;> rfl
  · rw [encode_of_decodeWrite hi]
    cases r
    case cmd => exact absurd rfl hr
    all_goals cases hi
    all_goals simp [Access.wellFormed, writableOffsets, Reg.offset]

/-! ### The obligations -/

/-- Settles O6: the access of each kind of instruction decodes by the opcode map or by the register map. -/
theorem decodeOfEncodeIsTheInstruction : Obligations.DecodeOfEncodeIsTheInstruction := by
  intro i
  obtain ⟨opc, arg, hi, -, harg⟩ | ⟨r, -, hi⟩ | ⟨r, v, -, hi⟩ := i.cases_access
  · rw [encode_of_commandOf hi harg, decode_cmdAccess hi harg]
  · rw [encode_of_readInstr hi, decode_read_offset hi]
  · rw [encode_of_decodeWrite hi, decode_write_offset, hi]

/-- Settles O7: a register has one read and one write for each word, and a command one word. -/
theorem encodeOfDecodeIsTheAccess : Obligations.EncodeOfDecodeIsTheAccess := by
  intro a i h
  cases a with
  | read off n =>
    obtain ⟨r, rfl, rfl, hi⟩ := exists_readInstr_of_decode h
    exact encode_of_readInstr hi
  | write off n v =>
    obtain ⟨r, rfl, rfl, hi⟩ := exists_decodeWrite_of_decode h
    exact encode_of_decodeWrite hi

/-- Settles O8: a well-formed access is the read of a readable register, the plain write of a writable one or a legal
CMD word; and an access that decodes is an encoding, which is well formed. -/
theorem wellFormedAccessesAreThoseThatDecode : Obligations.WellFormedAccessesAreThoseThatDecode := by
  intro a
  refine ⟨exists_decode_of_wellFormed, fun ⟨i, hi⟩ => ?_⟩
  rw [← encodeOfDecodeIsTheAccess a i hi]
  exact encode_wellFormed i

/-- Settles O9: each word is that of its opcode and argument, each offset that of its register. -/
theorem specWordsDecodeToTheirRows : Obligations.SpecWordsDecodeToTheirRows :=
  ⟨rfl, rfl, rfl, rfl, rfl, rfl, rfl, rfl, rfl, rfl, rfl⟩

end Sys2Proof
end

section
/-! What an instruction does (00_scope.md R11, 20_memory.md R74, 60_exceptions.md R202): one inversion of `exec` with a
case for each way an instruction can end, from which the rules over all instructions are read off. -/

namespace Sys2Proof

/-- No write of a register other than CMD is a command or an instruction of a framer. -/
theorem plainWrite_kind {r : Reg} {v : Word} {i : Instr} (hr : r ≠ .cmd) (hi : decodeWrite v r = .instr i) :
    i.isCommand = false ∧ Machine.isTx i = false ∧ Machine.isRx i = false := by
  cases r
  case cmd => exact absurd rfl hr
  all_goals cases hi
  all_goals exact ⟨rfl, rfl, rfl⟩

end Sys2Proof

namespace Sys2Proof.Machine

open Sys2Proof.Config (params)

/-! ### The plain write of a register -/

/-- The state in which an RW register holds `v` (44_control.md R182); no other register is written plainly. -/
def State.writeReg (s : State) (r : Reg) (v : Word) : State :=
  match r with
  | .sdTag => { s with sdTag := v }
  | .sdTs => { s with sdTs := v }
  | .sdValLo => { s with sdValLo := v }
  | .sdValHi => { s with sdValHi := v }
  | .rangeStart => { s with rangeStart := v }
  | .rangeEnd => { s with rangeEnd := v }
  | _ => s

/-- The meaning of a plain write is `State.writeReg`. -/
theorem exec_plainWrite {r : Reg} {v : Word} {i : Instr} (hr : r ≠ .cmd) (hi : decodeWrite v r = .instr i)
    (s : State) : exec i s = .next (s.writeReg r v) := by
  cases r
  case cmd => exact absurd rfl hr
  all_goals cases hi
  all_goals rfl

section WriteReg

variable (s : State) (r : Reg) (v : Word)

@[simp] theorem State.writeReg_txActive : (s.writeReg r v).txActive = s.txActive := by cases r <;> rfl
@[simp] theorem State.writeReg_txq : (s.writeReg r v).txq = s.txq := by cases r <;> rfl
@[simp] theorem State.writeReg_txAcc : (s.writeReg r v).txAcc = s.txAcc := by cases r <;> rfl
@[simp] theorem State.writeReg_rxDone : (s.writeReg r v).rxDone = s.rxDone := by cases r <;> rfl
@[simp] theorem State.writeReg_cmdErr : (s.writeReg r v).cmdErr = s.cmdErr := by cases r <;> rfl

theorem State.writeReg_sameRx : (s.writeReg r v).sameRx s := by cases r <;> simp [State.sameRx, State.writeReg]

theorem State.writeReg_sameSdOutputs : (s.writeReg r v).sameSdOutputs s := by
  cases r <;> simp [State.sameSdOutputs, State.writeReg]

/-- A plain write shows in its own register, if that is an RW register, and in no other. -/
theorem regValue_writeReg (r' : Reg) :
    regValue (s.writeReg r v) r' = if r' = r ∧ r.access = .rw then some v else regValue s r' := by
  cases r <;> cases r' <;> rfl

end WriteReg

/-! ### The inversion of `exec` -/

/-- Every way an instruction can end in the state `s`: each element the right side does not name stays. -/
inductive Effect (s : State) : Instr → State → Prop
  | fail (i : Instr) (hi : i.isCommand = true) (code : CmdErr) : Effect s i (s.failWith code)
  | nop : Effect s .nop s.succeed
  | txStart (hidle : s.txActive = false) (hroom : s.txq.length + 1 ≤ params.txqDepth) : Effect s .txStart
      { s with txq := s.txq ++ [delim], txAcc := params.fcsInit, txActive := true, cmdErr := .ok }
  | txContent (i : Instr) (bs : List Byte) (hi : i = .txRange ∨ ∃ b, i = .txByte b) (hactive : s.txActive = true)
      (hroom : s.txq.length + (escs bs).length ≤ params.txqDepth) : Effect s i
      { s with txq := s.txq ++ escs bs, txAcc := fcsFold params s.txAcc bs, cmdErr := .ok }
  | txEnd (hactive : s.txActive = true) (hroom : s.txq.length + (txTrailer params s).length ≤ params.txqDepth) :
      Effect s .txEnd { s with txq := s.txq ++ txTrailer params s, txActive := false, cmdErr := .ok }
  | popTx (b : Byte) (rest : List Byte) (hq : s.txq = b :: rest) :
      Effect s .rdTxData (State.returnRead { s with txq := rest } (validByte b))
  | rxByte (w : Byte) (hidle : s.rxDone = false) : Effect s (.rxByte w) (rxConsume params w s).succeed
  | rxAck (hdone : s.rxDone = true) : Effect s .rxAck s.unlatch.succeed
  | nextRx (b : Byte) (hb : s.nextContent = some b) :
      Effect s .rdRxData (State.returnRead { s with rxRd := s.rxRd + 1 } (validByte b))
  | sdDecode : Effect s .sdDecode (sdDecode params s)
  | sreset : Effect s .sreset (resetBlock params s)
  | read (i : Instr) (hi : i.isCommand = false) (v : Word) : Effect s i (s.returnRead v)
  | write (i : Instr) (r : Reg) (v : Word) (hr : r ≠ .cmd) (hi : decodeWrite v r = .instr i) :
      Effect s i (s.writeReg r v)

theorem effect_txContent {i : Instr} {bs : List Byte} (hi : i = .txRange ∨ ∃ b, i = .txByte b) (hbs : bs ≠ [])
    (s : State) : Effect s i (txContent params bs s) := by
  have hcommand : i.isCommand = true := by rcases hi with rfl | ⟨b, rfl⟩ <;> rfl
  obtain ⟨-, h⟩ | ⟨-, -, h⟩ | ⟨hactive, hroom, h⟩ := txContent_cases params hbs s
  · exact h ▸ .fail i hcommand .txState
  · exact h ▸ .fail i hcommand .txFull
  · exact h ▸ .txContent i bs hi hactive hroom

/-- What an instruction does is one of the ways of `Effect`. -/
theorem effect_of_exec {i : Instr} {s t : State} (h : exec i s = .next t) : Effect s i t := by
  cases i <;> cases h
  case nop => exact .nop
  case txStart =>
    obtain ⟨-, h⟩ | ⟨-, -, h⟩ | ⟨hidle, hroom, h⟩ := txStart_cases params s
    · exact h ▸ .fail _ rfl .txState
    · exact h ▸ .fail _ rfl .txFull
    · exact h ▸ .txStart hidle hroom
  case txByte b => exact effect_txContent (.inr ⟨b, rfl⟩) (List.cons_ne_nil _ _) s
  case txRange => exact effect_txContent (.inl rfl) (rangeBytes_ne_nil s) s
  case txEnd =>
    obtain ⟨-, h⟩ | ⟨-, -, h⟩ | ⟨hactive, hroom, h⟩ := txEnd_cases params s
    · exact h ▸ .fail _ rfl .txState
    · exact h ▸ .fail _ rfl .txFull
    · exact h ▸ .txEnd hactive hroom
  case rxByte w =>
    cases hd : s.rxDone with
    | true => exact rxByte_of_done w hd ▸ .fail _ rfl .rxBusy
    | false => exact rxByte_of_idle w hd ▸ .rxByte w hd
  case rxAck =>
    obtain ⟨-, h⟩ | ⟨hdone, h⟩ := rxAck_cases s
    · exact h ▸ .fail _ rfl .rxState
    · exact h ▸ .rxAck hdone
  case sdDecode => exact .sdDecode
  case sreset => exact .sreset
  case rdTxData =>
    obtain ⟨-, h⟩ | ⟨b, rest, hq, h⟩ := readTxData_cases s
    · exact h ▸ .read _ rfl noByte
    · exact h ▸ .popTx b rest hq
  case rdRxData =>
    obtain ⟨-, h⟩ | ⟨b, hb, h⟩ := readRxData_cases s
    · exact h ▸ .read _ rfl noByte
    · exact h ▸ .nextRx b hb
  case wrSdTag v => exact .write _ .sdTag v nofun rfl
  case wrSdTs v => exact .write _ .sdTs v nofun rfl
  case wrSdValLo v => exact .write _ .sdValLo v nofun rfl
  case wrSdValHi v => exact .write _ .sdValHi v nofun rfl
  case wrRangeStart v => exact .write _ .rangeStart v nofun rfl
  case wrRangeEnd v => exact .write _ .rangeEnd v nofun rfl
  all_goals exact .read _ rfl _

end Sys2Proof.Machine
end

section
/-! The invariant of the block (10_state.md sections 3 and 4, 42_rx_deframer.md section 4): it holds at reset, and each way
an instruction can end keeps it, unit by unit. -/

namespace Sys2Proof.Machine

open Sys2Proof.Config (Params)

/-! ### Units that an update leaves alone -/

theorem State.sameTx_refl (s : State) : s.sameTx s := ⟨rfl, rfl, rfl, rfl, rfl⟩

theorem State.sameRx_refl (s : State) : s.sameRx s := ⟨rfl, rfl, rfl, rfl, rfl, rfl, rfl, rfl, rfl⟩

theorem State.sameSdOutputs_refl (s : State) : s.sameSdOutputs s := ⟨rfl, rfl, rfl, rfl, rfl, rfl, rfl, rfl⟩

theorem State.sameInputs_refl (s : State) : s.sameInputs s := ⟨rfl, rfl, rfl, rfl, rfl, rfl⟩

section Kept

variable {P : Params} {s t : State}

/-- The invariant speaks of the FIFO, the deframer's elements and the scalar decoder's outputs only. -/
theorem State.Inv.congr (h : s.Inv P) (htx : t.txq = s.txq) (hrx : t.sameRx s) (hsd : t.sameSdOutputs s) :
    t.Inv P where
  tx := ⟨by rw [htx]; exact h.tx.fits⟩
  rx := rxInv_congr h.rx hrx
  sd := sdInv_congr h.sd hsd

/-- What stays within the capacity keeps the invariant, if nothing but the framer changes. -/
theorem State.Inv.of_txq (h : s.Inv P) (hfits : t.txq.length ≤ P.txqDepth) (hrx : t.sameRx s)
    (hsd : t.sameSdOutputs s) : t.Inv P :=
  ⟨⟨hfits⟩, rxInv_congr h.rx hrx, sdInv_congr h.sd hsd⟩

/-- An update of the deframer that keeps its invariant keeps the block's. -/
theorem State.Inv.of_rx (h : s.Inv P) (hrx : RxInv P t) (htx : t.txq = s.txq) (hsd : t.sameSdOutputs s) : t.Inv P :=
  ⟨⟨by rw [htx]; exact h.tx.fits⟩, hrx, sdInv_congr h.sd hsd⟩

/-! ### The deframer -/

/-- `rxByte_frame` for the byte that is consumed. -/
theorem rxConsume_succeed_frame (w : Byte) (hidle : s.rxDone = false) :
    (rxConsume P w s).succeed.sameTx s ∧ (rxConsume P w s).succeed.sameSdOutputs s ∧
      (rxConsume P w s).succeed.sameInputs s := by
  obtain ⟨htx, hsd, hinputs, -⟩ := rxByte_frame P w s
  rw [rxByte_of_idle w hidle] at htx hsd hinputs
  exact ⟨htx, hsd, hinputs⟩

/-- While nothing is latched the scan is free in the state and the body, within the bounds of R152 and R141. -/
theorem RxInv.scan (h : RxInv P s) (hidle : s.rxDone = false) {state : RxState} {body : List Byte}
    (hfits : body.length ≤ P.rxMaxBody) (hhunt : state = .hunt → body = []) :
    RxInv P { s with rxState := state, rxBody := body } where
  bodyFits := hfits
  huntEmpty := hhunt
  doneLatched := fun hdone => by simp [hidle] at hdone
  doneState := fun hdone => by simp [hidle] at hdone
  idleClear := h.idleClear
  causeKind := h.causeKind
  okChecked := h.okChecked
  mismatchDiffers := h.mismatchDiffers
  framingNoFcs := h.framingNoFcs
  contentOk := h.contentOk
  readInside := h.readInside

theorem rxInv_latch_framingError {cause : RxCause} (hcause : cause ≠ .none)
    (hs : s.rxState = if cause = .overflow then .hunt else .opened) :
    RxInv P (s.latch .framingError cause [] 0 0) :=
  rxInv_latch hs nofun (by simp [hcause]) nofun nofun (fun _ => ⟨rfl, rfl⟩) fun _ => rfl

theorem RxInv.rxClose (h : RxInv P s) (hs : s.rxState = .opened) : RxInv P (rxClose P s) := by
  obtain ⟨-, hc⟩ | ⟨-, hc⟩ | ⟨c, lo, hi, hb, hfcs, hc⟩ | ⟨c, lo, hi, hb, hfcs, hc⟩ := rxClose_cases P s
  · exact hc.symm ▸ h
  · exact hc ▸ rxInv_latch_framingError nofun hs
  · have hlen : c.length + 2 ≤ P.rxMaxBody := by simpa [hb] using h.bodyFits
    exact hc ▸ rxInv_latch hs nofun (by simp) (fun _ => ⟨hfcs, rfl, hlen⟩) nofun nofun fun hne => absurd rfl hne
  · exact hc ▸ rxInv_latch hs nofun (by simp) nofun (fun _ => hfcs) nofun fun _ => rfl

theorem RxInv.rxConsume (h : RxInv P s) (hidle : s.rxDone = false) (w : Byte) : RxInv P (rxConsume P w s) := by
  rcases rxConsume_cases P w s with ⟨-, -, hc⟩ | ⟨-, -, hc⟩ | ⟨hs, -, hc⟩ | ⟨-, -, hc⟩ | ⟨-, -, hc⟩ |
    ⟨-, -, hroom, v, hc⟩ | ⟨-, -, -, hc⟩
  · exact hc ▸ h.scan hidle (Nat.zero_le _) nofun
  · exact hc.symm ▸ h
  · exact hc ▸ h.rxClose hs
  · exact hc ▸ h.scan hidle h.bodyFits nofun
  · exact hc ▸ rxInv_latch_framingError (s := { s with rxState := .opened }) (cause := .danglingEsc) nofun rfl
  · refine hc ▸ h.scan hidle ?_ nofun
    have := h.bodyFits
    rw [List.length_append, List.length_singleton]
    omega
  · exact hc ▸ rxInv_latch_framingError (s := { s with rxState := .hunt }) (cause := .overflow) nofun rfl

theorem RxInv.unlatch (h : RxInv P s) : RxInv P s.unlatch where
  bodyFits := h.bodyFits
  huntEmpty := h.huntEmpty
  doneLatched := nofun
  doneState := nofun
  idleClear := fun _ => ⟨rfl, rfl, rfl, rfl, rfl, rfl⟩
  causeKind := by simp [State.unlatch]
  okChecked := nofun
  mismatchDiffers := nofun
  framingNoFcs := nofun
  contentOk := fun _ => rfl
  readInside := Nat.zero_le _

/-- Reading the next content byte moves the pointer up to the content's end and no further. -/
theorem RxInv.advance (h : RxInv P s) {b : Byte} (hb : s.nextContent = some b) :
    RxInv P { s with rxRd := s.rxRd + 1 } := by
  obtain ⟨hdone, -, hget⟩ := nextContent_eq_some.1 hb
  obtain ⟨hlt, -⟩ := List.getElem?_eq_some_iff.1 hget
  exact { h with
    idleClear := fun hidle => by simp [hdone] at hidle
    readInside := hlt }

/-! ### The scalar decoder and reset -/

theorem sdInv_sdDecode (P : Params) (s : State) : SdInv P (sdDecode P s) := by
  obtain ⟨q, hq, h⟩ | ⟨hq, w, -, hw, h⟩ | ⟨hq, -, h⟩ := sdDecode_cases P s
  · rw [h]
    exact ⟨nofun, fun _ => ⟨q, hq, rfl, rfl, rfl, rfl⟩, nofun, nofun⟩
  · rw [h]
    exact ⟨nofun, nofun, fun _ => ⟨hq, rfl, hw, rfl, rfl, rfl⟩, nofun⟩
  · rw [h]
    exact ⟨nofun, nofun, nofun, fun _ => ⟨hq, rfl, rfl, rfl, rfl, rfl⟩⟩

/-- SD_DECODE leaves everything but its outputs and `cmd_err` alone. -/
theorem sdDecode_frame (P : Params) (s : State) :
    (sdDecode P s).sameTx s ∧ (sdDecode P s).sameRx s ∧ (sdDecode P s).sameInputs s := by
  obtain ⟨q, -, h⟩ | ⟨-, w, -, -, h⟩ | ⟨-, -, h⟩ := sdDecode_cases P s <;> rw [h] <;>
    exact ⟨s.sameTx_refl, s.sameRx_refl, s.sameInputs_refl⟩

theorem inv_resetWith (P : Params) : (State.resetWith P).Inv P where
  tx := ⟨Nat.zero_le _⟩
  rx := by constructor <;> simp [State.resetWith]
  sd := ⟨fun _ => ⟨rfl, rfl, rfl, rfl, rfl, rfl, rfl⟩, nofun, nofun, nofun⟩

end Kept

/-! ### Every way an instruction can end -/

theorem Effect.inv {i : Instr} {s t : State} (h : Effect s i t) (hinv : s.Inv Config.params) :
    t.Inv Config.params := by
  cases h with
  | fail _ _ code => exact hinv.congr rfl s.sameRx_refl s.sameSdOutputs_refl
  | nop => exact hinv.congr rfl s.sameRx_refl s.sameSdOutputs_refl
  | txStart _ hroom | txContent _ bs _ _ hroom | txEnd _ hroom =>
    exact hinv.of_txq (by simpa using hroom) s.sameRx_refl s.sameSdOutputs_refl
  | popTx b rest hq =>
    have hfits := hinv.tx.fits
    rw [hq, List.length_cons] at hfits
    exact hinv.of_txq (Nat.le_of_succ_le hfits) s.sameRx_refl s.sameSdOutputs_refl
  | rxByte w hidle =>
    obtain ⟨⟨-, htx, -⟩, hsd, -⟩ := rxConsume_succeed_frame (P := Config.params) w hidle
    exact hinv.of_rx (rxInv_congr (hinv.rx.rxConsume hidle w) (State.sameRx_refl _)) htx hsd
  | rxAck _ => exact hinv.of_rx (rxInv_congr hinv.rx.unlatch (State.sameRx_refl _)) rfl s.sameSdOutputs_refl
  | nextRx b hb => exact hinv.of_rx (rxInv_congr (hinv.rx.advance hb) (State.sameRx_refl _)) rfl s.sameSdOutputs_refl
  | sdDecode =>
    obtain ⟨⟨-, htx, -⟩, hrx, -⟩ := sdDecode_frame Config.params s
    exact ⟨⟨htx ▸ hinv.tx.fits⟩, rxInv_congr hinv.rx hrx, sdInv_sdDecode _ s⟩
  | sreset => exact (inv_resetWith _).congr rfl (State.sameRx_refl _) (State.sameSdOutputs_refl _)
  | read _ _ v => exact hinv.congr rfl s.sameRx_refl s.sameSdOutputs_refl
  | write _ r v _ _ => exact hinv.congr (s.writeReg_txq r v) (s.writeReg_sameRx r v) (s.writeReg_sameSdOutputs r v)

/-! ### The obligations -/

/-- Settles O56: the reset values are those of empty lists, no outcome and no result. -/
theorem resetMeetsTheInvariant : Obligations.ResetMeetsTheInvariant := inv_resetWith Config.params

/-- Settles O57: a step is an instruction, a reset, a failed command or nothing, in the state without its move, of which
the invariant does not speak. -/
theorem everyStepKeepsTheInvariant : Obligations.EveryStepKeepsTheInvariant := by
  intro s t hinv hstep
  have htaken (rest : List HostMove) : State.Inv Config.params { s with hostMoves := rest } :=
    hinv.congr rfl s.sameRx_refl s.sameSdOutputs_refl
  obtain ⟨-, h⟩ | ⟨rest, -, h⟩ | ⟨a, rest, i, -, -, h⟩ | ⟨a, rest, why, -, -, h⟩ | ⟨a, rest, why, -, -, h⟩ :=
    step_cases s
  · cases h.symm.trans hstep
    exact hinv
  · cases h.symm.trans hstep
    exact (inv_resetWith _).congr rfl (State.sameRx_refl _) (State.sameSdOutputs_refl _)
  · exact (effect_of_exec (h.symm.trans hstep)).inv (htaken rest)
  · cases h.symm.trans hstep
    exact (htaken rest).congr rfl (State.sameRx_refl _) (State.sameSdOutputs_refl _)
  · cases h.symm.trans hstep

end Sys2Proof.Machine
end

section
/-! Rules over all instructions (10_state.md section 8, 20_memory.md section 6, 60_exceptions.md R202): which elements an
instruction can change, read off `Effect`, and what the two framers depend on. -/

namespace Sys2Proof.Machine

open Sys2Proof.Config (Params)

/-! ### What each unit is changed by -/

section Frame

variable {i : Instr} {s t : State}

theorem Effect.keeps_tx (h : Effect s i t) (htx : isTx i = false) (hreset : i ≠ .sreset) :
    t.txActive = s.txActive ∧ t.txq = s.txq ∧ t.txAcc = s.txAcc := by
  cases h with
  | txStart | txEnd | popTx => cases htx
  | txContent _ bs hi => rcases hi with rfl | ⟨b, rfl⟩ <;> cases htx
  | rxByte w hidle =>
    obtain ⟨⟨hactive, hq, hacc, -⟩, -⟩ := rxConsume_succeed_frame (P := Config.params) w hidle
    exact ⟨hactive, hq, hacc⟩
  | sdDecode =>
    obtain ⟨⟨hactive, hq, hacc, -⟩, -⟩ := sdDecode_frame Config.params s
    exact ⟨hactive, hq, hacc⟩
  | sreset => exact absurd rfl hreset
  | write _ r v => exact ⟨s.writeReg_txActive r v, s.writeReg_txq r v, s.writeReg_txAcc r v⟩
  | fail | nop | rxAck | nextRx | read => exact ⟨rfl, rfl, rfl⟩

theorem Effect.sameRx (h : Effect s i t) (hrx : isRx i = false) (hreset : i ≠ .sreset) : t.sameRx s := by
  cases h with
  | rxByte | rxAck | nextRx => cases hrx
  | sdDecode => exact (sdDecode_frame Config.params s).2.1
  | sreset => exact absurd rfl hreset
  | write _ r v => exact s.writeReg_sameRx r v
  | fail | nop | txStart | txContent | txEnd | popTx | read => exact s.sameRx_refl

theorem Effect.sameSdOutputs (h : Effect s i t) (hsd : i ≠ .sdDecode) (hreset : i ≠ .sreset) :
    t.sameSdOutputs s := by
  cases h with
  | rxByte w hidle => exact (rxConsume_succeed_frame w hidle).2.1
  | sdDecode => exact absurd rfl hsd
  | sreset => exact absurd rfl hreset
  | write _ r v => exact s.writeReg_sameSdOutputs r v
  | fail | nop | txStart | txContent | txEnd | popTx | rxAck | nextRx | read => exact s.sameSdOutputs_refl

theorem Effect.sameInputs (h : Effect s i t) (hwrite : ∀ r v, r ≠ .cmd → decodeWrite v r ≠ .instr i)
    (hreset : i ≠ .sreset) : t.sameInputs s := by
  cases h with
  | rxByte w hidle => exact (rxConsume_succeed_frame w hidle).2.2
  | sdDecode => exact (sdDecode_frame Config.params s).2.2
  | sreset => exact absurd rfl hreset
  | write _ r v hr hi => exact absurd hi (hwrite r v hr)
  | fail | nop | txStart | txContent | txEnd | popTx | rxAck | nextRx | read => exact s.sameInputs_refl

/-- The accumulator survives the end of a frame and the reads of the FIFO too. -/
theorem Effect.txAcc (h : Effect s i t) (hstart : i ≠ .txStart) (hbyte : ∀ b, i ≠ .txByte b) (hrange : i ≠ .txRange)
    (hreset : i ≠ .sreset) : t.txAcc = s.txAcc := by
  cases htx : isTx i with
  | false => exact (h.keeps_tx htx hreset).2.2
  | true =>
    cases h with
    | txStart => exact absurd rfl hstart
    | txContent _ bs hi =>
      rcases hi with rfl | ⟨b, rfl⟩
      · exact absurd rfl hrange
      · exact absurd rfl (hbyte b)
    | sreset => exact absurd rfl hreset
    | write _ r v => exact s.writeReg_txAcc r v
    | rxByte | sdDecode => cases htx
    | fail | nop | txEnd | popTx | rxAck | nextRx | read => rfl

/-- Who writes `tx_active`. -/
theorem Effect.txActive (h : Effect s i t) : t.txActive = s.txActive ∨ (i = .txStart ∧ t.txActive = true) ∨
    ((i = .txEnd ∨ i = .sreset) ∧ t.txActive = false) := by
  cases h with
  | txStart => exact .inr (.inl ⟨rfl, rfl⟩)
  | txEnd => exact .inr (.inr ⟨.inl rfl, rfl⟩)
  | sreset => exact .inr (.inr ⟨.inr rfl, rfl⟩)
  | rxByte w hidle => exact .inl (rxConsume_succeed_frame (P := Config.params) w hidle).1.1
  | sdDecode => exact .inl (sdDecode_frame Config.params s).1.1
  | write _ r v => exact .inl (s.writeReg_txActive r v)
  | fail | nop | txContent | popTx | rxAck | nextRx | read => exact .inl rfl

/-- Who writes `rx_done`. -/
theorem Effect.rxDone (h : Effect s i t) : t.rxDone = s.rxDone ∨ ((∃ w, i = .rxByte w) ∧ s.rxDone = false) ∨
    ((i = .rxAck ∨ i = .sreset) ∧ t.rxDone = false) := by
  cases h with
  | rxByte w hidle => exact .inr (.inl ⟨⟨w, rfl⟩, hidle⟩)
  | rxAck => exact .inr (.inr ⟨.inl rfl, rfl⟩)
  | sreset => exact .inr (.inr ⟨.inr rfl, rfl⟩)
  | sdDecode =>
    obtain ⟨-, ⟨-, -, hdone, -⟩, -⟩ := sdDecode_frame Config.params s
    exact .inl hdone
  | write _ r v => exact .inl (s.writeReg_rxDone r v)
  | fail | nop | txStart | txContent | txEnd | popTx | nextRx | read => exact .inl rfl

/-- A command that does not fail ends with `cmd_err <- 0`. -/
theorem Effect.command_end (h : Effect s i t) (hi : i.isCommand = true) :
    t.cmdErr = .ok ∨ ∃ code, t = s.failWith code := by
  cases h with
  | fail _ _ code => exact .inr ⟨code, rfl⟩
  | popTx | nextRx => cases hi
  | read _ hread => simp [hread] at hi
  | write _ r v hr hwrite => simp [(plainWrite_kind hr hwrite).1] at hi
  | nop | txStart | txContent | txEnd | rxByte | rxAck | sdDecode | sreset => exact .inl rfl

theorem Effect.cmdErr_of_not_command (h : Effect s i t) (hi : i.isCommand = false) : t.cmdErr = s.cmdErr := by
  cases h with
  | fail _ hcommand => simp [hcommand] at hi
  | txContent _ bs hcontent => rcases hcontent with rfl | ⟨b, rfl⟩ <;> cases hi
  | write _ r v => exact s.writeReg_cmdErr r v
  | nop | txStart | txEnd | rxByte | rxAck | sdDecode | sreset => cases hi
  | popTx | nextRx | read => rfl

theorem regValue_of_sameInputs {r : Reg} (hr : r.access = .rw) (h : t.sameInputs s) : regValue t r = regValue s r := by
  obtain ⟨htag, hts, hlo, hhi, hstart, hend⟩ := h
  cases r <;> cases hr <;> simp only [regValue, htag, hts, hlo, hhi, hstart, hend]

/-- An RW register keeps its value past every instruction but its own write and SRESET. -/
theorem regValue_of_exec {r : Reg} (hr : r.access = .rw) (hreset : i ≠ .sreset)
    (hown : ∀ v, decodeWrite v r ≠ .instr i) (h : exec i s = .next t) : regValue t r = regValue s r := by
  by_cases hwrite : ∃ r' v, r' ≠ .cmd ∧ decodeWrite v r' = .instr i
  · obtain ⟨r', v, hr', hi⟩ := hwrite
    have hne : r ≠ r' := by
      rintro rfl
      exact hown v hi
    cases h.symm.trans (exec_plainWrite hr' hi s)
    simp [regValue_writeReg, hne]
  · exact regValue_of_sameInputs hr
      ((effect_of_exec h).sameInputs (fun r' v hr' hi => hwrite ⟨r', v, hr', hi⟩) hreset)

end Frame

theorem regValue_of_runInstrs {r : Reg} {is : List Instr} {s t : State} (hr : r.access = .rw)
    (hkeep : ∀ i ∈ is, i ≠ .sreset ∧ ∀ v, decodeWrite v r ≠ .instr i) (h : runInstrs is s = .next t) :
    regValue t r = regValue s r := by
  induction is generalizing s with
  | nil =>
    cases h
    rfl
  | cons i is ih =>
    obtain ⟨⟨hreset, hown⟩, hrest⟩ := List.forall_mem_cons.1 hkeep
    obtain ⟨u, hu⟩ := exec_next i s
    rw [runInstrs_cons is hu] at h
    exact (ih hrest h).trans (regValue_of_exec hr hreset hown hu)

/-- The registers with a plain write are the RW registers. -/
theorem access_of_decodeWrite {r : Reg} {v : Word} {i : Instr} (hr : r ≠ .cmd) (h : decodeWrite v r = .instr i) :
    r.access = .rw := by
  cases r
  case cmd => exact absurd rfl hr
  all_goals cases h
  all_goals rfl

/-! ### What the framers depend on -/

section TwoRuns

variable {P : Params} {s s' : State}

theorem txStart_congr (h : s.sameTx s') :
    (txStart P s).sameTx (txStart P s') ∧ (txStart P s).cmdErr = (txStart P s').cmdErr := by
  obtain ⟨hactive, hq, hacc, hstart, hend⟩ := h
  obtain ⟨ha, h⟩ | ⟨ha, hr, h⟩ | ⟨ha, hr, h⟩ := txStart_cases P s
  · rw [h, txStart_of_active (hactive ▸ ha)]
    exact ⟨⟨hactive, hq, hacc, hstart, hend⟩, rfl⟩
  · rw [h, txStart_of_full (hactive ▸ ha) (hq ▸ hr)]
    exact ⟨⟨hactive, hq, hacc, hstart, hend⟩, rfl⟩
  · rw [h, txStart_of_room (hactive ▸ ha) (hq ▸ hr)]
    exact ⟨⟨rfl, congrArg (· ++ _) hq, rfl, hstart, hend⟩, rfl⟩

theorem txContent_congr {bs : List Byte} (hbs : bs ≠ []) (h : s.sameTx s') :
    (txContent P bs s).sameTx (txContent P bs s') ∧ (txContent P bs s).cmdErr = (txContent P bs s').cmdErr := by
  obtain ⟨hactive, hq, hacc, hstart, hend⟩ := h
  obtain ⟨ha, h⟩ | ⟨ha, hr, h⟩ | ⟨ha, hr, h⟩ := txContent_cases P hbs s
  · rw [h, txContent_of_not_active (hactive ▸ ha)]
    exact ⟨⟨hactive, hq, hacc, hstart, hend⟩, rfl⟩
  · rw [h, txContent_of_full hbs (hactive ▸ ha) (hq ▸ hr)]
    exact ⟨⟨hactive, hq, hacc, hstart, hend⟩, rfl⟩
  · rw [h, txContent_of_room hbs (hactive ▸ ha) (hq ▸ hr)]
    exact ⟨⟨hactive, congrArg (· ++ _) hq, congrArg (fcsFold P · bs) hacc, hstart, hend⟩, rfl⟩

theorem txRange_congr (h : s.sameTx s') : (txContent P (rangeBytes s) s).sameTx (txContent P (rangeBytes s') s') ∧
    (txContent P (rangeBytes s) s).cmdErr = (txContent P (rangeBytes s') s').cmdErr := by
  have ⟨_, _, _, hstart, hend⟩ := h
  have hbytes : rangeBytes s = rangeBytes s' := by simp only [rangeBytes, hstart, hend]
  exact hbytes ▸ txContent_congr (rangeBytes_ne_nil s) h

theorem txEnd_congr (h : s.sameTx s') :
    (txEnd P s).sameTx (txEnd P s') ∧ (txEnd P s).cmdErr = (txEnd P s').cmdErr := by
  obtain ⟨hactive, hq, hacc, hstart, hend⟩ := h
  have htrailer : txTrailer P s = txTrailer P s' := by simp only [txTrailer, hacc]
  obtain ⟨ha, h⟩ | ⟨ha, hr, h⟩ | ⟨ha, hr, h⟩ := txEnd_cases P s
  · rw [h, txEnd_of_not_active (hactive ▸ ha)]
    exact ⟨⟨hactive, hq, hacc, hstart, hend⟩, rfl⟩
  · rw [h, txEnd_of_full (hactive ▸ ha) (htrailer ▸ hq ▸ hr)]
    exact ⟨⟨hactive, hq, hacc, hstart, hend⟩, rfl⟩
  · rw [h, txEnd_of_room (hactive ▸ ha) (htrailer ▸ hq ▸ hr)]
    exact ⟨⟨rfl, congrArg₂ (· ++ ·) hq htrailer, hacc, hstart, hend⟩, rfl⟩

theorem readTxData_congr (h : s.sameTx s') (herr : s.cmdErr = s'.cmdErr) :
    (readTxData s).sameTx (readTxData s') ∧ (readTxData s).cmdErr = (readTxData s').cmdErr ∧
      ∃ vs, (readTxData s).hostReads = s.hostReads ++ vs ∧ (readTxData s').hostReads = s'.hostReads ++ vs := by
  obtain ⟨hactive, hq, hacc, hstart, hend⟩ := h
  obtain ⟨hnil, h⟩ | ⟨b, rest, hcons, h⟩ := readTxData_cases s
  · rw [h, readTxData_of_nil (hq ▸ hnil)]
    exact ⟨⟨hactive, hq, hacc, hstart, hend⟩, herr, _, rfl, rfl⟩
  · rw [h, readTxData_of_cons (hq ▸ hcons)]
    exact ⟨⟨hactive, rfl, hacc, hstart, hend⟩, herr, _, rfl, rfl⟩

theorem sameRx_latch (h : s.rxState = s'.rxState) (kind : RxResult) (cause : RxCause) (content : List Byte)
    (frx fcalc : Half) : (s.latch kind cause content frx fcalc).sameRx (s'.latch kind cause content frx fcalc) :=
  ⟨h, rfl, rfl, rfl, rfl, rfl, rfl, rfl, rfl⟩

theorem rxAppend_congr (v : Byte) (h : s.sameRx s') : (rxAppend P v s).sameRx (rxAppend P v s') := by
  obtain ⟨hstate, hbody, hlatch⟩ := h
  by_cases hfull : s.rxBody.length = P.rxMaxBody
  · rw [rxAppend_of_full v hfull, rxAppend_of_full v (hbody ▸ hfull)]
    exact sameRx_latch (s := { s with rxState := .hunt }) (s' := { s' with rxState := .hunt }) rfl _ _ _ _ _
  · rw [rxAppend_of_room v hfull, rxAppend_of_room v (hbody ▸ hfull)]
    exact ⟨hstate, congrArg (· ++ _) hbody, hlatch⟩

theorem rxClose_congr (h : s.sameRx s') : (rxClose P s).sameRx (rxClose P s') := by
  have ⟨hstate, hbody, _⟩ := h
  obtain ⟨hb, hc⟩ | ⟨⟨b, hb⟩, hc⟩ | ⟨c, lo, hi, hb, -, -⟩ | ⟨c, lo, hi, hb, -, -⟩ := rxClose_cases P s
  · rw [hc, rxClose_of_nil (hbody ▸ hb)]
    exact h
  · rw [hc, rxClose_of_singleton (hbody ▸ hb)]
    exact sameRx_latch hstate _ _ _ _ _
  all_goals
    rw [rxClose_of_append_two hb, rxClose_of_append_two (hbody ▸ hb)]
    exact sameRx_latch hstate _ _ _ _ _

theorem State.sameRx.with_rxState (h : s.sameRx s') (x : RxState) :
    State.sameRx { s with rxState := x } { s' with rxState := x } :=
  ⟨rfl, h.2⟩

theorem rxConsume_congr (w : Byte) (h : s.sameRx s') : (rxConsume P w s).sameRx (rxConsume P w s') := by
  have ⟨hstate, hbody, hlatch⟩ := h
  unfold rxConsume
  rw [← hstate]
  cases s.rxState with
  | hunt =>
    dsimp only
    split_ifs
    · exact ⟨rfl, rfl, hlatch⟩
    · exact h
  | opened =>
    dsimp only
    split_ifs
    · exact rxClose_congr h
    · exact h.with_rxState .esc
    · exact rxAppend_congr w h
  | esc =>
    dsimp only
    split_ifs
    · exact sameRx_latch (s := { s with rxState := .opened }) (s' := { s' with rxState := .opened }) rfl _ _ _ _ _
    · exact rxAppend_congr _ (h.with_rxState .opened)

theorem rxByte_congr (w : Byte) (h : s.sameRx s') :
    (rxByte P w s).sameRx (rxByte P w s') ∧ (rxByte P w s).cmdErr = (rxByte P w s').cmdErr := by
  have ⟨_, _, hdone, _⟩ := h
  cases hd : s.rxDone with
  | true =>
    rw [rxByte_of_done w hd, rxByte_of_done w (hdone ▸ hd)]
    exact ⟨h, rfl⟩
  | false =>
    rw [rxByte_of_idle w hd, rxByte_of_idle w (hdone ▸ hd)]
    exact ⟨rxConsume_congr w h, rfl⟩

theorem rxAck_congr (h : s.sameRx s') : (rxAck s).sameRx (rxAck s') ∧ (rxAck s).cmdErr = (rxAck s').cmdErr := by
  have ⟨hstate, hbody, hdone, _⟩ := h
  obtain ⟨hd, hc⟩ | ⟨hd, hc⟩ := rxAck_cases s
  · rw [hc, rxAck_of_idle (hdone ▸ hd)]
    exact ⟨h, rfl⟩
  · rw [hc, rxAck_of_done (hdone ▸ hd)]
    exact ⟨⟨hstate, hbody, rfl, rfl, rfl, rfl, rfl, rfl, rfl⟩, rfl⟩

theorem readRxData_congr (h : s.sameRx s') (herr : s.cmdErr = s'.cmdErr) :
    (readRxData s).sameRx (readRxData s') ∧ (readRxData s).cmdErr = (readRxData s').cmdErr ∧
      ∃ vs, (readRxData s).hostReads = s.hostReads ++ vs ∧ (readRxData s').hostReads = s'.hostReads ++ vs := by
  have ⟨hstate, hbody, hdone, hresult, hcause, hcontent, hrx, hcalc, hrd⟩ := h
  have hnext : s.nextContent = s'.nextContent := by simp only [State.nextContent, hdone, hresult, hcontent, hrd]
  obtain ⟨hnone, hc⟩ | ⟨b, hsome, hc⟩ := readRxData_cases s
  · rw [hc, readRxData_of_none (hnext ▸ hnone)]
    exact ⟨h, herr, _, rfl, rfl⟩
  · rw [hc, readRxData_of_some (hnext ▸ hsome)]
    exact ⟨⟨hstate, hbody, hdone, hresult, hcause, hcontent, hrx, hcalc, congrArg (· + 1) hrd⟩, herr, _, rfl, rfl⟩

end TwoRuns

/-- Two runs of a command append the same values to what the host has read: none. -/
theorem exec_command_sameReads {i : Instr} {s s' t t' : State} (hi : i.isCommand = true) (h : exec i s = .next t)
    (h' : exec i s' = .next t') : ∃ vs, t.hostReads = s.hostReads ++ vs ∧ t'.hostReads = s'.hostReads ++ vs :=
  ⟨[], by simp [exec_command_hostReads h hi], by simp [exec_command_hostReads h' hi]⟩

section Exec

variable {i : Instr} {s s' t t' : State} (h : exec i s = .next t) (h' : exec i s' = .next t')
  (herr : i.isCommand = false → s.cmdErr = s'.cmdErr)

include h h' herr

theorem exec_tx_congr (hi : isTx i = true) (hsame : s.sameTx s') : t.sameTx t' ∧ t.cmdErr = t'.cmdErr ∧
    ∃ vs, t.hostReads = s.hostReads ++ vs ∧ t'.hostReads = s'.hostReads ++ vs := by
  have hnone (hcommand : i.isCommand = true) := exec_command_sameReads hcommand h h'
  cases i <;> cases h <;> cases h'
  case txStart => exact and_assoc.1 ⟨txStart_congr hsame, hnone rfl⟩
  case txByte b => exact and_assoc.1 ⟨txContent_congr (List.cons_ne_nil _ _) hsame, hnone rfl⟩
  case txRange => exact and_assoc.1 ⟨txRange_congr hsame, hnone rfl⟩
  case txEnd => exact and_assoc.1 ⟨txEnd_congr hsame, hnone rfl⟩
  case rdTxData => exact readTxData_congr hsame (herr rfl)
  all_goals cases hi

theorem exec_rx_congr (hi : isRx i = true) (hsame : s.sameRx s') : t.sameRx t' ∧ t.cmdErr = t'.cmdErr ∧
    ∃ vs, t.hostReads = s.hostReads ++ vs ∧ t'.hostReads = s'.hostReads ++ vs := by
  have hnone (hcommand : i.isCommand = true) := exec_command_sameReads hcommand h h'
  cases i <;> cases h <;> cases h'
  case rxByte w => exact and_assoc.1 ⟨rxByte_congr w hsame, hnone rfl⟩
  case rxAck => exact and_assoc.1 ⟨rxAck_congr hsame, hnone rfl⟩
  case rdRxData => exact readRxData_congr hsame (herr rfl)
  all_goals cases hi

end Exec

theorem isRx_of_isTx {i : Instr} (h : isTx i = true) : isRx i = false := by cases i <;> cases h <;> rfl

theorem isTx_of_isRx {i : Instr} (h : isRx i = true) : isTx i = false := by cases i <;> cases h <;> rfl

/-! ### The obligations on what an instruction can change -/

/-- Settles O48: a command fails without another effect, or ends with `cmd_err <- 0`. -/
theorem failedCommandChangesOnlyCmdErr : Obligations.FailedCommandChangesOnlyCmdErr := by
  intro i s t hi h
  obtain hok | ⟨code, rfl⟩ := (effect_of_exec h).command_end hi
  · exact .inl hok
  · exact .inr rfl

/-- Settles O49: the reads and the plain writes leave `cmd_err` as it is. -/
theorem onlyCommandsChangeCmdErr : Obligations.OnlyCommandsChangeCmdErr :=
  fun _ _ _ hi h => (effect_of_exec h).cmdErr_of_not_command hi

/-- Settles O53: the ways in which the other instructions end leave these elements out. -/
theorem scalarOutputsAndTxFcsAreStable : Obligations.ScalarOutputsAndTxFcsAreStable :=
  fun _ _ _ h => ⟨(effect_of_exec h).sameSdOutputs, (effect_of_exec h).txAcc⟩

/-- Settles O52: by who writes each flag. -/
theorem flagsChangeOnlyByTheirWriters : Obligations.FlagsChangeOnlyByTheirWriters := by
  intro i s t h
  have heffect := effect_of_exec h
  refine ⟨fun hs ht => ?_, fun hs ht => ?_, fun hs ht => ?_, fun hs ht => ?_, fun hne => ?_⟩
  · obtain hkept | ⟨hi, -⟩ | ⟨-, hclear⟩ := heffect.txActive
    · simp [hs, ht] at hkept
    · exact hi
    · simp [ht] at hclear
  · obtain hkept | ⟨-, hset⟩ | ⟨hi, -⟩ := heffect.txActive
    · simp [hs, ht] at hkept
    · simp [ht] at hset
    · exact hi
  · obtain hkept | ⟨hi, -⟩ | ⟨-, hclear⟩ := heffect.rxDone
    · simp [hs, ht] at hkept
    · exact hi
    · simp [ht] at hclear
  · obtain hkept | ⟨-, hidle⟩ | ⟨hi, -⟩ := heffect.rxDone
    · simp [hs, ht] at hkept
    · simp [hs] at hidle
    · exact hi
  · by_contra hi
    obtain ⟨hsd, hreset⟩ := not_or.1 hi
    exact hne (heffect.sameSdOutputs hsd hreset).1

/-- Settles O50: an instruction of one framer is no instruction of the other, no write, no SD_DECODE and no SRESET. -/
theorem framerInstructionsTouchTheirOwnUnit : Obligations.FramerInstructionsTouchTheirOwnUnit := by
  intro i s t h
  have heffect := effect_of_exec h
  have hother (hframer : isTx i = true ∨ isRx i = true) :
      i ≠ .sreset ∧ t.sameSdOutputs s ∧ t.sameInputs s := by
    have hreset : i ≠ .sreset := by
      rintro rfl
      simp [isTx, isRx] at hframer
    have hsd : i ≠ .sdDecode := by
      rintro rfl
      simp [isTx, isRx] at hframer
    refine ⟨hreset, heffect.sameSdOutputs hsd hreset, heffect.sameInputs (fun r v hr hi => ?_) hreset⟩
    obtain ⟨-, htx, hrx⟩ := plainWrite_kind hr hi
    simp [htx, hrx] at hframer
  refine ⟨fun htx => ?_, fun hrx => ?_⟩
  · obtain ⟨hreset, hsd, hinputs⟩ := hother (.inl htx)
    exact ⟨heffect.sameRx (isRx_of_isTx htx) hreset, hsd, hinputs⟩
  · obtain ⟨hreset, hsd, hinputs⟩ := hother (.inr hrx)
    obtain ⟨hactive, hq, hacc⟩ := heffect.keeps_tx (isTx_of_isRx hrx) hreset
    have ⟨_, _, _, _, hranges⟩ := hinputs
    exact ⟨⟨hactive, hq, hacc, hranges⟩, hsd, hinputs⟩

/-- Settles O51: each operation of a framer goes by that framer's elements. -/
theorem streamsDoNotReadEachOther : Obligations.StreamsDoNotReadEachOther :=
  fun _ _ _ _ _ h h' herr => ⟨exec_tx_congr h h' herr, exec_rx_congr h h' herr⟩

/-- Settles O47: the write stores the value, nothing between changes it, and the read returns it. -/
theorem readReturnsTheLastWrite : Obligations.ReadReturnsTheLastWrite := by
  intro r v wr rd between s t hr hwr hrd hkeep hrun
  have haccess := access_of_decodeWrite hr hwr
  rw [runInstrs_cons between (exec_plainWrite hr hwr s)] at hrun
  have hvalue : regValue t r = some v := by
    rw [regValue_of_runInstrs haccess hkeep hrun, regValue_writeReg]
    exact if_pos ⟨rfl, haccess⟩
  refine exec_plainRead ?_ ?_ hrd hvalue
  · rintro rfl
    cases haccess
  · rintro rfl
    cases haccess

end Sys2Proof.Machine
end

section
/-! The machine's step and its runs (00_scope.md R11, 70_reset_and_hazards.md sections 3 and 5, 60_exceptions.md
section 1): what a step does with each move of the host, when it stops, and how a host program runs. -/

namespace Sys2Proof.Machine

/-! ### One step, by the host's next move -/

section Step

variable {s : State} {rest : List HostMove}

theorem step_of_instr {a : Access} {i : Instr} (hm : s.hostMoves = .access a :: rest) (hd : decode a = .instr i) :
    step s = exec i { s with hostMoves := rest } := by
  simp [step, nextMove, hm, hd]

theorem step_of_reset (hm : s.hostMoves = .reset :: rest) :
    step s = .next (resetBlock Config.params { s with hostMoves := rest }) := by
  simp [step, nextMove, hm]

theorem step_of_nil (hm : s.hostMoves = []) : step s = .next s := by
  simp [step, nextMove, hm]

theorem exec_keeps_hostMoves {i : Instr} {t : State} (h : exec i s = .next t) : t.hostMoves = s.hostMoves := by
  obtain ⟨u, hu, -, hmoves⟩ := exec_hostMoves i s []
  cases h.symm.trans hu
  exact hmoves

/-- A legal move is taken off the list and answers a next state. -/
theorem step_of_legal {m : HostMove} (hm : s.hostMoves = m :: rest) (hlegal : m.legal = true) :
    ∃ t, step s = .next t ∧ t.hostMoves = rest := by
  cases m with
  | reset => exact ⟨_, step_of_reset hm, rfl⟩
  | access a =>
    cases hd : decode a with
    | instr i =>
      obtain ⟨t, ht⟩ := exec_next i { s with hostMoves := rest }
      exact ⟨t, (step_of_instr hm hd).trans ht, exec_keeps_hostMoves ht⟩
    | illegal why => exact ⟨_, step_of_illegal hm hd, rfl⟩
    | busError why => simp [HostMove.legal, hd] at hlegal

end Step

/-! ### The obligations on a step -/

/-- Settles O1: the step takes the move off the list and dispatches on what it decodes to. -/
theorem stepRunsDecodedInstruction : Obligations.StepRunsDecodedInstruction :=
  fun _ _ _ _ hm hd => step_of_instr hm hd

/-- Settles O2: the reset event is `resetBlock` in the state without it, and an empty list makes no step. -/
theorem stepOnResetEventAndAtTheEnd : Obligations.StepOnResetEventAndAtTheEnd :=
  fun _ => ⟨fun _ hm => step_of_reset hm, step_of_nil⟩

/-- Settles O5: of the five things a step can do only the last stops, and an instruction always answers a next state. -/
theorem onlyBusErrorsStopTheMachine : Obligations.OnlyBusErrorsStopTheMachine := by
  intro s
  obtain ⟨-, h⟩ | ⟨rest, -, h⟩ | ⟨a, rest, i, -, -, h⟩ | ⟨a, rest, why, -, -, h⟩ | ⟨a, rest, why, hm, hd, h⟩ :=
    step_cases s
  · simp [h]
  · simp [h]
  · obtain ⟨t, ht⟩ := exec_next i { s with hostMoves := rest }
    simp [h, ht]
  · simp [h]
  · refine ⟨fun f hf => ⟨a, rest, why, hm, hd, ?_⟩, by simp [h]⟩
    cases h.symm.trans hf
    rfl

/-! ### The obligations on a run -/

/-- Settles O58: each move of a safe program is legal, so each step takes one move. -/
theorem safeProgramsRunToTheirEnd : Obligations.SafeProgramsRunToTheirEnd := by
  intro s hsafe
  generalize hm : s.hostMoves = ms at hsafe
  induction ms generalizing s with
  | nil => exact ⟨s, rfl, hm⟩
  | cons m rest ih =>
    obtain ⟨hlegal, hrest⟩ : m.legal = true ∧ safeProgram rest = true := by simpa [safeProgram] using hsafe
    obtain ⟨t, ht, hmoves⟩ := step_of_legal hm hlegal
    rw [List.length_cons, core_run_succ ht]
    exact ih t hmoves hrest

/-- Settles O59: each access decodes to the instruction it encodes (O6), which neither reads nor changes the moves that
follow. -/
theorem programRunsItsInstructionsInOrder : Obligations.ProgramRunsItsInstructionsInOrder := by
  intro is s t hm hrun
  induction is generalizing s with
  | nil =>
    cases hrun
    exact congrArg Host.Outcome.next (by rw [movesOf, List.map_nil, ← hm])
  | cons i is ih =>
    obtain ⟨u, hu, humoves, hkept⟩ := exec_hostMoves i s (movesOf is)
    rw [runInstrs_cons is hu] at hrun
    have hstep : step { s with hostMoves := movesOf (i :: is) } = .next { u with hostMoves := movesOf is } :=
      (step_of_instr rfl (decodeOfEncodeIsTheInstruction i)).trans humoves
    rw [List.length_cons, core_run_succ hstep]
    exact ih u (hkept.trans hm) hrun

end Sys2Proof.Machine
end

section
/-! What the register reads return (10_state.md sections 3 and 4): the data registers, RX_FCS, and every register after
reset. -/

namespace Sys2Proof.Machine

/-- Settles O41: each is the plain read of its own register. -/
theorem dataRegisterReads : Obligations.DataRegisterReads := fun _ => ⟨rfl, rfl, rfl, rfl, rfl, rfl, rfl⟩

theorem rxFcsWord_toNat (s : State) : (rxFcsWord s).toNat = s.rxFcsCalc.toNat * 65536 + s.rxFcsRx.toNat :=
  toNat_append_mul _ _

/-- Without an OK outcome or a mismatch no checksum shows. -/
theorem RxInv.fcs_eq_zero {P : Config.Params} {s : State} (h : RxInv P s) (hok : s.rxResult ≠ .ok)
    (hmismatch : s.rxResult ≠ .checksumMismatch) : s.rxFcsRx = 0 ∧ s.rxFcsCalc = 0 := by
  cases hresult : s.rxResult with
  | none =>
    have hidle : s.rxDone = false := by
      by_contra hdone
      exact (h.doneLatched (by simpa using hdone)).2 hresult
    obtain ⟨-, -, -, hrx, hcalc, -⟩ := h.idleClear hidle
    exact ⟨hrx, hcalc⟩
  | ok => exact absurd hresult hok
  | framingError => exact h.framingNoFcs hresult
  | checksumMismatch => exact absurd hresult hmismatch

/-- Settles O45: the word is the sum of its halves; the invariant leaves both 0 while nothing or a framing error is
latched, and equal when the outcome is OK. -/
theorem rxFcsRegisterFields : Obligations.RxFcsRegisterFields := by
  intro s hinv
  have hword := rxFcsWord_toNat s
  have hrx := s.rxFcsRx.isLt
  have hlo : (rxFcsWord s).toNat % 65536 = s.rxFcsRx.toNat := by omega
  have hhi : (rxFcsWord s).toNat / 65536 = s.rxFcsCalc.toNat := by omega
  refine ⟨rxFcsWord s, rfl, hlo, hhi, fun hok hmismatch => ?_, fun hok => ?_⟩
  · obtain ⟨hrx0, hcalc0⟩ := hinv.fcs_eq_zero hok hmismatch
    rw [rxFcsWord, hrx0, hcalc0]
    rfl
  · obtain ⟨heq, -⟩ := hinv.okChecked hok
    rw [hlo, hhi, heq]

theorem txFcsWord_eq (s : State) : txFcsWord s = s.txAcc.setWidth 32 := by
  apply BitVec.eq_of_toNat_eq
  have := s.txAcc.isLt
  rw [txFcsWord_toNat, BitVec.toNat_setWidth]
  omega

/-- Settles O55: TX_FCS zero-extends the accumulator, and the other registers are made of elements that are 0, empty or
`false` after reset. -/
theorem resetRegisterValues : Obligations.ResetRegisterValues := by
  intro r i hi
  cases r <;> cases hi <;> refine ⟨_, rfl, ?_⟩
  case txFcs => exact congrArg ([·]) (txFcsWord_eq State.reset)
  all_goals rfl

end Sys2Proof.Machine
end

section
/-! The properties of escaping and of frames (40_frame_primitives.md section 4). -/

namespace Sys2Proof.Machine

open Sys2Proof.Config (Params)

/-! ### One byte's escape -/

theorem delim_not_mem_esc (b : Byte) : delim ∉ esc b := by revert b; decide

/-- The bytes that stand for an escaped byte after the escape byte. -/
theorem xor_xmask_mem_followers {b : Byte} (h : b ∈ escapedSet) :
    b ^^^ xmask ∈ [(0x5E : Byte), 0x5D, 0x31, 0x32, 0x33] := by
  revert b; decide

theorem xor_xmask_ne {b : Byte} (h : b ∈ escapedSet) : b ^^^ xmask ≠ delim ∧ b ^^^ xmask ≠ escb := by
  revert b; decide

theorem ne_of_not_mem_escapedSet {b : Byte} (h : b ∉ escapedSet) : b ≠ delim ∧ b ≠ escb :=
  ⟨fun hd => h (hd ▸ by decide), fun he => h (he ▸ by decide)⟩

theorem unescFrom_esc_append (b : Byte) (ws : List Byte) :
    unescFrom false (esc b ++ ws) = (unescFrom false ws).map (b :: ·) := by
  by_cases hb : b ∈ escapedSet
  · rw [esc_of_mem hb]
    simp [unescFrom, unescPair, (xor_xmask_ne hb).1, show escb ≠ delim by decide]
  · obtain ⟨hd, he⟩ := ne_of_not_mem_escapedSet hb
    rw [esc_of_not_mem hb]
    simp [unescFrom, hd, he]

/-- An escape byte in an escaped byte with more after it begins the pair, or stands in what follows. -/
theorem escb_of_esc_append {b : Byte} {ws pre post : List Byte} (h : esc b ++ ws = pre ++ escb :: post) :
    (∃ x rest, post = x :: rest ∧ x ∈ [(0x5E : Byte), 0x5D, 0x31, 0x32, 0x33]) ∨
      ∃ pre', ws = pre' ++ escb :: post := by
  by_cases hb : b ∈ escapedSet
  · rw [esc_of_mem hb] at h
    match pre with
    | [] =>
      obtain ⟨-, rfl⟩ := List.cons_eq_cons.1 h
      exact .inl ⟨_, _, rfl, xor_xmask_mem_followers hb⟩
    | [_] =>
      obtain ⟨-, h⟩ := List.cons_eq_cons.1 h
      exact absurd (List.cons_eq_cons.1 h).1 (xor_xmask_ne hb).2
    | _ :: _ :: pre' => exact .inr ⟨pre', (List.cons_eq_cons.1 (List.cons_eq_cons.1 h).2).2⟩
  · rw [esc_of_not_mem hb] at h
    match pre with
    | [] => exact absurd (List.cons_eq_cons.1 h).1 (ne_of_not_mem_escapedSet hb).2
    | _ :: pre' => exact .inr ⟨pre', (List.cons_eq_cons.1 h).2⟩

/-! ### Escaped byte lists -/

theorem delim_not_mem_escs (l : List Byte) : delim ∉ escs l := by
  rw [escs_eq_flatMap, List.mem_flatMap]
  rintro ⟨b, -, hb⟩
  exact delim_not_mem_esc b hb

theorem unescs_escs (l : List Byte) : unescs (escs l) = some l := by
  induction l with
  | nil => rfl
  | cons b l ih =>
    have hrest : unescFrom false (escs l) = some l := ih
    rw [unescs, escs_cons, unescFrom_esc_append, hrest, Option.map_some]

theorem follower_of_escb_in_escs {l pre post : List Byte} (h : escs l = pre ++ escb :: post) :
    ∃ x rest, post = x :: rest ∧ x ∈ [(0x5E : Byte), 0x5D, 0x31, 0x32, 0x33] := by
  induction l generalizing pre with
  | nil => simp at h
  | cons b l ih =>
    obtain hpair | ⟨pre', hrest⟩ := escb_of_esc_append h
    · exact hpair
    · exact ih hrest

theorem encodeFrame_length (P : Params) (c : List Byte) :
    (encodeFrame P c).length = (escs (bodyOf P c)).length + 2 := by
  simp [encodeFrame_eq]

/-- Settles O21: byte by byte, since each byte's escape is the byte itself or a canonical pair. -/
theorem escapedBytesUnescapeAndHoldNoDelimiter : Obligations.EscapedBytesUnescapeAndHoldNoDelimiter :=
  fun l => ⟨delim_not_mem_escs l, unescs_escs l, fun _ _ => follower_of_escb_in_escs⟩

/-- Settles O22: between the delimiters stands the escaped body, of the content and two checksum bytes. -/
theorem encodedFrameDelimitersAndLength : Obligations.EncodedFrameDelimitersAndLength := by
  intro P c
  have hbody := escs_length (bodyOf P c)
  rw [bodyOf_length] at hbody
  refine ⟨⟨_, encodeFrame_eq P c, delim_not_mem_escs _⟩, ?_⟩
  rw [encodeFrame_length]
  omega

end Sys2Proof.Machine
end

section
/-! Sending frames (41_tx_framer.md sections 2 to 4): what the commands of a frame leave in the FIFO, with and without reads
in between, and the host's read loop. -/

namespace Sys2Proof.Machine

open Sys2Proof.Config (params)

/-! ### Frames with room for all of them -/

theorem txqDepth_ge (P : Config.Params) : 16 ≤ P.txqDepth := Nat.le_add_left 16 _

theorem encodeFrame_eq_append (P : Config.Params) (c : List Byte) :
    encodeFrame P c = [delim] ++ escs c ++ (escs (fcsBytes (fcs16 P c)) ++ [delim]) := by
  simp [encodeFrame, bodyOf]

/-- The state after TX_START and TX_BYTE of the bytes `c`, none of which failed (41_tx_framer.md R121, R122). -/
def State.openFrame (s : State) (c : List Byte) : State :=
  { s with txq := s.txq ++ delim :: escs c, txAcc := fcsFold params params.fcsInit c, txActive := true, cmdErr := .ok }

/-- The state after a whole frame (41_tx_framer.md R124). -/
def State.sentFrame (s : State) (c : List Byte) : State :=
  { s with
    txq := s.txq ++ encodeFrame params c, txAcc := fcsFold params params.fcsInit c, txActive := false, cmdErr := .ok }

theorem exec_txStart_eq_openFrame {s : State} (hidle : s.txActive = false) (hroom : s.txq.length + 1 ≤ params.txqDepth) :
    exec .txStart s = .next (s.openFrame []) :=
  congrArg Host.Outcome.next (txStart_of_room hidle hroom)

theorem run_txBytes_openFrame {s : State} {c : List Byte}
    (hroom : s.txq.length + (1 + (escs c).length) ≤ params.txqDepth) :
    runInstrs (c.map .txByte) (s.openFrame []) = .next (s.openFrame c) := by
  rw [run_txBytes c (s.openFrame []) rfl (.inr rfl) (by simp [State.openFrame]; omega)]
  simp [State.openFrame]

theorem exec_txEnd_openFrame {s : State} {c : List Byte}
    (hroom : s.txq.length + (encodeFrame params c).length ≤ params.txqDepth) :
    exec .txEnd (s.openFrame c) = .next (s.sentFrame c) := by
  have hq : (s.openFrame c).txq ++ txTrailer params (s.openFrame c) = s.txq ++ encodeFrame params c := by
    simp [State.openFrame, encodeFrame_eq_append, txTrailer, fcs16]
  have hfits : (s.openFrame c).txq.length + (txTrailer params (s.openFrame c)).length ≤ params.txqDepth := by
    rwa [← List.length_append, hq, List.length_append]
  refine congrArg Host.Outcome.next ((txEnd_of_room rfl hfits).trans ?_)
  rw [hq]
  rfl

/-- TX_FRAME with room for the encoded frame. -/
theorem runInstrs_txFrame {s : State} (c : List Byte) (hidle : s.txActive = false)
    (hroom : s.txq.length + (encodeFrame params c).length ≤ params.txqDepth) :
    runInstrs (txFrame c) s = .next (s.sentFrame c) := by
  have hlength : 1 + (escs c).length ≤ (encodeFrame params c).length := by
    simp [encodeFrame_eq_append]
    omega
  rw [txFrame, runInstrs_cons _ (exec_txStart_eq_openFrame hidle (by omega)),
    runInstrs_append (run_txBytes_openFrame (by omega)), runInstrs_cons _ (exec_txEnd_openFrame hroom), runInstrs_nil]

/-- Settles O17: the encoded frame is at most `2n + 6` bytes long. -/
theorem txFramePushesTheEncodedFrame : Obligations.TxFramePushesTheEncodedFrame := by
  intro c s hidle hroom
  have hlength := (encodedFrameDelimitersAndLength params c).2.2
  exact ⟨_, runInstrs_txFrame c hidle (by omega), rfl, rfl, rfl, s.sameRx_refl, s.sameSdOutputs_refl,
    s.sameInputs_refl⟩

/-- Content of at most eight bytes fits an empty FIFO, escaped or not. -/
theorem txContent_of_nil {s : State} {bs : List Byte} (hq : s.txq = []) (hactive : s.txActive = true) (hbs : bs ≠ [])
    (hlength : bs.length ≤ 8) :
    (txContent params bs s).cmdErr = .ok ∧ (txContent params bs s).txq.length ≤ 2 * bs.length := by
  have hdepth := txqDepth_ge params
  have hescs := (escs_length bs).2
  rw [txContent_of_room hbs hactive (by rw [hq, List.length_nil]; omega)]
  exact ⟨rfl, by simpa [hq] using hescs⟩

/-- Settles O16: the FIFO's capacity is at least 16, and a command pushes at most twice its content bytes, or the trailer
of at most five. -/
theorem txCommandsSucceedOnAnEmptyFifo : Obligations.TxCommandsSucceedOnAnEmptyFifo := by
  intro s hq
  have hdepth := txqDepth_ge params
  refine ⟨fun hidle => ?_, fun hactive => ⟨fun b => ?_, ?_, ?_⟩⟩
  · exact ⟨_, congrArg Host.Outcome.next (txStart_of_room hidle (by simp [hq]; omega)), rfl, rfl, by simp [hq]⟩
  · exact ⟨_, rfl, txContent_of_nil hq hactive (List.cons_ne_nil _ _) (by simp)⟩
  · exact ⟨_, rfl, txContent_of_nil hq hactive (rangeBytes_ne_nil s) (rangeBytes_length s).le⟩
  · have hlength := (txTrailer_length params s).2
    exact ⟨_, congrArg Host.Outcome.next (txEnd_of_room hactive (by rw [hq, List.length_nil]; omega)), rfl, rfl,
      by simpa [hq] using hlength⟩

/-! ### Commands that did not fail -/

theorem txStart_of_ok {P : Config.Params} {s : State} (h : (txStart P s).cmdErr = .ok) :
    txStart P s = { s with txq := s.txq ++ [delim], txAcc := P.fcsInit, txActive := true, cmdErr := .ok } := by
  obtain ⟨-, hs⟩ | ⟨-, -, hs⟩ | ⟨-, -, hs⟩ := txStart_cases P s
  · simp [hs] at h
  · simp [hs] at h
  · exact hs

theorem txContent_of_ok {P : Config.Params} {s : State} {bs : List Byte} (hbs : bs ≠ [])
    (h : (txContent P bs s).cmdErr = .ok) : s.txActive = true ∧ s.txq.length + (escs bs).length ≤ P.txqDepth ∧
      txContent P bs s = { s with txq := s.txq ++ escs bs, txAcc := fcsFold P s.txAcc bs, cmdErr := .ok } := by
  obtain ⟨-, hs⟩ | ⟨-, -, hs⟩ | hok := txContent_cases P hbs s
  · simp [hs] at h
  · simp [hs] at h
  · exact hok

theorem txEnd_of_ok {P : Config.Params} {s : State} (h : (txEnd P s).cmdErr = .ok) :
    txEnd P s = { s with txq := s.txq ++ txTrailer P s, txActive := false, cmdErr := .ok } := by
  obtain ⟨-, hs⟩ | ⟨-, -, hs⟩ | ⟨-, -, hs⟩ := txEnd_cases P s
  · simp [hs] at h
  · simp [hs] at h
  · exact hs

/-- Settles O13: a TX_RANGE that does not fail has room for the escaped bytes, so each TX_BYTE has. -/
theorem txRangeEqualsEightTxBytes : Obligations.TxRangeEqualsEightTxBytes := by
  intro s t h hok
  cases h
  obtain ⟨hactive, hroom, hs⟩ := txContent_of_ok (rangeBytes_ne_nil s) hok
  rw [run_txBytes _ s hactive (.inl (rangeBytes_ne_nil s)) hroom, hs]

/-! ### Frames sent while the FIFO is drained (41_tx_framer.md R126) -/

/-- What the host read from `s` to `t` and what is then in the FIFO are what was in the FIFO and then `out`. -/
def Sent (s t : State) (out : List Byte) : Prop :=
  ∃ vs, t.hostReads = s.hostReads ++ vs ∧ wireBytes vs ++ t.txq = s.txq ++ out

theorem Sent.trans {s t u : State} {out out' : List Byte} (h : Sent s t out) (h' : Sent t u out') :
    Sent s u (out ++ out') := by
  obtain ⟨vs, hreads, hwire⟩ := h
  obtain ⟨vs', hreads', hwire'⟩ := h'
  refine ⟨vs ++ vs', by rw [hreads', hreads, List.append_assoc], ?_⟩
  calc wireBytes (vs ++ vs') ++ u.txq = wireBytes vs ++ (wireBytes vs' ++ u.txq) := by simp [wireBytes]
    _ = (wireBytes vs ++ t.txq) ++ out' := by rw [hwire', List.append_assoc]
    _ = s.txq ++ (out ++ out') := by rw [hwire, List.append_assoc]

/-- A command that pushes `out` reads nothing. -/
theorem Sent.of_push {s t : State} {out : List Byte} (hreads : t.hostReads = s.hostReads)
    (hq : t.txq = s.txq ++ out) : Sent s t out :=
  ⟨[], by rw [hreads, List.append_nil], hq⟩

/-- From `s` to `t` the FIFO was drained and nothing else the framer uses has changed. -/
structure Drained (s t : State) : Prop where
  sent : Sent s t []
  txActive : t.txActive = s.txActive
  txAcc : t.txAcc = s.txAcc
  range : rangeBytes t = rangeBytes s

theorem Drained.refl (s : State) : Drained s s :=
  ⟨.of_push rfl (List.append_nil _).symm, rfl, rfl, rfl⟩

theorem Drained.trans {s t u : State} (h : Drained s t) (h' : Drained t u) : Drained s u :=
  ⟨h.sent.trans h'.sent, h'.txActive.trans h.txActive, h'.txAcc.trans h.txAcc, h'.range.trans h.range⟩

theorem wireBytes_validByte (b : Byte) : wireBytes [validByte b] = [b] := by
  simp [wireBytes, validByte_valid]

theorem wireBytes_noByte : wireBytes [noByte] = [] := rfl

theorem drained_readTxData (s : State) : Drained s (readTxData s) := by
  obtain ⟨hq, h⟩ | ⟨b, rest, hq, h⟩ := readTxData_cases s
  · rw [h]
    exact ⟨⟨[noByte], rfl, by simp [wireBytes_noByte]⟩, rfl, rfl, rfl⟩
  · rw [h]
    exact ⟨⟨[validByte b], rfl, by simp [wireBytes_validByte, hq]⟩, rfl, rfl, rfl⟩

/-- A run of nothing but reads. -/
theorem RunsClean.drained {is : List Instr} {s t : State} (h : RunsClean is s t)
    (hnone : is.filter (fun i => i ≠ .rdTxData) = []) : Drained s t := by
  induction is generalizing s with
  | nil =>
    cases h
    exact .refl _
  | cons j is ih =>
    obtain ⟨u, hu, -, hrest⟩ := h
    by_cases hj : j = .rdTxData
    · subst hj
      cases hu
      exact (drained_readTxData s).trans (ih hrest (by simpa using hnone))
    · simp [hj] at hnone

/-- A run whose first instruction other than a read is `i`: reads, then `i`, then the run of what remains. -/
theorem RunsClean.exists_first {is rest : List Instr} {i : Instr} {s t : State} (h : RunsClean is s t)
    (hfirst : is.filter (fun i => i ≠ .rdTxData) = i :: rest) : ∃ u u' is', Drained s u ∧ exec i u = .next u' ∧
      (i.isCommand = true → u'.cmdErr = .ok) ∧ RunsClean is' u' t ∧ is'.filter (fun i => i ≠ .rdTxData) = rest := by
  induction is generalizing s with
  | nil => cases hfirst
  | cons j is ih =>
    obtain ⟨v, hv, hok, hrest⟩ := h
    by_cases hj : j = .rdTxData
    · subst hj
      cases hv
      obtain ⟨u, u', is', hdrained, htail⟩ := ih hrest (by simpa using hfirst)
      exact ⟨u, u', is', (drained_readTxData s).trans hdrained, htail⟩
    · obtain ⟨rfl, hfilter⟩ : j = i ∧ is.filter (fun i => i ≠ .rdTxData) = rest := by simpa [hj] using hfirst
      exact ⟨s, v, is, .refl s, hv, hok, hrest, hfilter⟩

theorem TxItem.bytes_congr {s t : State} (h : rangeBytes t = rangeBytes s) (item : TxItem) :
    item.bytes t = item.bytes s := by
  cases item with
  | byte b => rfl
  | range => exact h

/-- TX_START, if it does not fail. -/
theorem sent_of_txStart {s t : State} (h : exec .txStart s = .next t) (hok : t.cmdErr = .ok) :
    Sent s t [delim] ∧ t.txAcc = params.fcsInit ∧ rangeBytes t = rangeBytes s := by
  cases h
  rw [txStart_of_ok hok]
  exact ⟨.of_push rfl rfl, rfl, rfl⟩

/-- The command of an entry, if it does not fail. -/
theorem sent_of_txItem {item : TxItem} {s t : State} (h : exec item.instr s = .next t) (hok : t.cmdErr = .ok) :
    Sent s t (escs (item.bytes s)) ∧ t.txAcc = fcsFold params s.txAcc (item.bytes s) ∧
      rangeBytes t = rangeBytes s := by
  have hcontent {bs : List Byte} (hbs : bs ≠ []) (hok : (txContent params bs s).cmdErr = .ok) :
      Sent s (txContent params bs s) (escs bs) ∧ (txContent params bs s).txAcc = fcsFold params s.txAcc bs ∧
        rangeBytes (txContent params bs s) = rangeBytes s := by
    obtain ⟨-, -, ht⟩ := txContent_of_ok hbs hok
    rw [ht]
    exact ⟨.of_push rfl rfl, rfl, rfl⟩
  cases item with
  | byte b =>
    cases h
    exact hcontent (List.cons_ne_nil _ _) hok
  | range =>
    cases h
    exact hcontent (rangeBytes_ne_nil s) hok

/-- TX_END, if it does not fail. -/
theorem sent_of_txEnd {s t : State} (h : exec .txEnd s = .next t) (hok : t.cmdErr = .ok) :
    Sent s t (txTrailer params s) ∧ t.txActive = false := by
  cases h
  rw [txEnd_of_ok hok]
  exact ⟨.of_push rfl rfl, rfl⟩

/-- The rest of an open frame, from the accumulator it has: the entries' bytes, escaped, and the trailer for them. -/
theorem sent_of_items {items : List TxItem} {is : List Instr} {s t : State} {bs : List Byte}
    (hitems : is.filter (fun i => i ≠ .rdTxData) = items.map TxItem.instr ++ [.txEnd])
    (hbs : items.flatMap (TxItem.bytes s) = bs) (h : RunsClean is s t) :
    Sent s t (escs bs ++ (escs (fcsBytes (params.fcsFin (fcsFold params s.txAcc bs))) ++ [delim])) ∧
      t.txActive = false := by
  induction items generalizing is s bs with
  | nil =>
    subst hbs
    obtain ⟨u, u', is', hdrained, hend, hok, hrest, hnone⟩ := h.exists_first hitems
    obtain ⟨hsent, hclosed⟩ := sent_of_txEnd hend (hok rfl)
    have hlast := hrest.drained hnone
    have hall := hdrained.sent.trans (hsent.trans hlast.sent)
    exact ⟨by simpa [txTrailer, hdrained.txAcc] using hall, hlast.txActive.trans hclosed⟩
  | cons item items ih =>
    subst hbs
    obtain ⟨u, u', is', hdrained, hitem, hok, hrest, hfilter⟩ := h.exists_first hitems
    obtain ⟨hsent, hacc, hrange⟩ := sent_of_txItem hitem (hok (by cases item <;> rfl))
    have hbytes : TxItem.bytes u' = TxItem.bytes s := funext (TxItem.bytes_congr (hrange.trans hdrained.range))
    obtain ⟨htail, hclosed⟩ := ih hfilter (congrArg (items.flatMap ·) hbytes) hrest
    have hall := hdrained.sent.trans (hsent.trans htail)
    rw [hacc, hdrained.txAcc, item.bytes_congr hdrained.range, ← fcsFold_append] at hall
    exact ⟨by simpa using hall, hclosed⟩

/-- Settles O18: the delimiter of TX_START is sent, then the content and its checksum from the accumulator's initial
value. -/
theorem txFrameIsSentInOrderWhileDrained : Obligations.TxFrameIsSentInOrderWhileDrained := by
  intro items is s t _ hframe h
  obtain ⟨u, u', is', hdrained, hstart, hok, hrest, hitems⟩ := h.exists_first hframe
  obtain ⟨hsent, hacc, hrange⟩ := sent_of_txStart hstart (hok rfl)
  have hbytes : TxItem.bytes u' = TxItem.bytes s := funext (TxItem.bytes_congr (hrange.trans hdrained.range))
  obtain ⟨htail, hclosed⟩ := sent_of_items hitems (congrArg (items.flatMap ·) hbytes) hrest
  rw [hacc] at htail
  obtain ⟨vs, hreads, hwire⟩ := hdrained.sent.trans (hsent.trans htail)
  refine ⟨vs, hreads, ?_, hclosed⟩
  rw [hwire, encodeFrame_eq_append]
  simp [fcs16]

/-! ### The read loop TX_DRAIN -/

theorem readLoop_succ {i : Instr} {s t : State} (h : exec i s = .next t) (n : Nat) :
    readLoop i (n + 1) s = if lastReadValid t then readLoop i n t else .next t := by
  simp only [readLoop, h]

theorem readLoop_rdTxData {n : Nat} {s : State} (hn : s.txq.length < n) :
    readLoop .rdTxData n s = .next { s with txq := [], hostReads := s.hostReads ++ s.txq.map validByte ++ [noByte] } := by
  induction n generalizing s with
  | zero => omega
  | succ n ih =>
    have hread : exec .rdTxData s = .next (readTxData s) := rfl
    cases hq : s.txq with
    | nil =>
      rw [readTxData_of_nil hq] at hread
      rw [readLoop_succ hread, lastReadValid_noByte]
      simp [State.returnRead, hq]
    | cons b rest =>
      rw [readTxData_of_cons hq] at hread
      rw [readLoop_succ hread, lastReadValid_validByte, if_pos rfl, ih (by simp [hq] at hn ⊢; omega)]
      simp [State.returnRead]

/-- Settles O19: a FIFO within its capacity is empty before the loop's bound is reached. -/
theorem txDrainReturnsTheFifoInOrder : Obligations.TxDrainReturnsTheFifoInOrder := by
  intro s hinv
  simp only [← validByte_eq]
  exact readLoop_rdTxData (Nat.lt_succ_of_le hinv.fits)

end Sys2Proof.Machine
end

section
/-! Receiving frames (42_rx_deframer.md): the transitions of R141, what feeding bytes does to a latched outcome, to HUNT and
to an open frame, and the properties of section 4. -/

namespace Sys2Proof

/-- The word of R142: the wire byte stands above the opcode. -/
theorem or_shiftLeft_eq_cmdWord_rxByte (w : Byte) : (0x00000010 ||| w.setWidth 32 <<< 8 : Word) = cmdWord 0x10 w := by
  revert w; decide

end Sys2Proof

namespace Sys2Proof.Machine

open Sys2Proof.Config (Params params)

/-! ### The transitions -/

/-- Settles O26: the check of the latch comes first. -/
theorem rxByteIsBusyWhileLatched : Obligations.RxByteIsBusyWhileLatched :=
  fun w _ hdone => congrArg Host.Outcome.next (rxByte_of_done w hdone)

/-- Settles O23: by the state, then by which of the two marked bytes the wire byte is, if it is one. -/
theorem rxTransitionTable : Obligations.RxTransitionTable := by
  intro w
  refine ⟨?_, fun s hidle => ?_⟩
  · rw [or_shiftLeft_eq_cmdWord_rxByte]
    exact decode_cmdAccess rfl (.inr rfl)
  have hstep (t : State) (h : rxConsume params w s = t) : exec (.rxByte w) s = .next { t with cmdErr := .ok } :=
    exec_rxByte_of_idle hidle h
  by_cases hdelim : w = 0x7E
  · subst hdelim
    exact ⟨fun hs => hstep { s with rxState := .opened, rxBody := [] } (by simp [rxConsume, hs, delim]),
      fun hs => hstep _ (rxConsume_delim_of_opened hs),
      fun hs => hstep { s.latch .framingError .danglingEsc [] 0 0 with rxState := .opened }
        (by simp [rxConsume, hs, delim])⟩
  have hw : w ≠ delim := hdelim
  have hhunt (hs : s.rxState = .hunt) : rxConsume params w s = s := by simp [rxConsume, hs, hw]
  have hesc (hs : s.rxState = .esc) :
      rxConsume params w s = rxAppend params (w ^^^ 0x20) { s with rxState := .opened } :=
    rxConsume_of_bodyByte (.inr ⟨hs, hw, rfl⟩)
  simp only [if_neg hdelim]
  by_cases hescb : w = 0x7D
  · subst hescb
    exact ⟨fun hs => hstep s (hhunt hs),
      fun hs => hstep { s with rxState := .esc } (by simp [rxConsume, hs, delim, escb]), fun hs => hstep _ (hesc hs)⟩
  simp only [if_neg hescb]
  refine ⟨fun hs => hstep s (hhunt hs), fun hs => hstep _ ?_, fun hs => hstep _ (hesc hs)⟩
  simp [rxConsume, hs, hw, show w ≠ escb from hescb]

section Feeding

variable {P : Params} {s : State}

/-! ### A latched outcome stays until it is acknowledged -/

theorem feed_of_done (ws : List Byte) (hdone : s.rxDone = true) :
    feed P ws s = s ∨ feed P ws s = s.failWith .rxBusy := by
  induction ws generalizing s with
  | nil => exact .inl rfl
  | cons w ws ih =>
    rw [feed_cons, rxByte_of_done w hdone]
    obtain h | h := ih (s := s.failWith .rxBusy) hdone <;> exact .inr h

theorem rxDone_feed_of_done (ws : List Byte) (hdone : s.rxDone = true) : (feed P ws s).rxDone = true := by
  obtain h | h := feed_of_done (P := P) ws hdone <;> rw [h] <;> exact hdone

theorem latchedOutcome_feed_of_done (ws : List Byte) (hdone : s.rxDone = true) :
    latchedOutcome (feed P ws s) = latchedOutcome s := by
  obtain h | h := feed_of_done (P := P) ws hdone <;> rw [h]
  rfl

/-- Nothing is latched before the bytes at whose end nothing is. -/
theorem rxDone_of_feed (ws : List Byte) (h : (feed P ws s).rxDone = false) : s.rxDone = false := by
  by_contra hdone
  simp [rxDone_feed_of_done ws (by simpa using hdone)] at h

/-! ### Bytes while HUNT, and a whole frame -/

/-- The states in which the next delimiter opens a frame: HUNT, and OPEN with nothing collected (R140). -/
def AwaitsFrame (s : State) : Prop :=
  s.rxDone = false ∧ (s.rxState = .hunt ∨ (s.rxState = .opened ∧ s.rxBody = []))

theorem feed_hunt {ws : List Byte} (hnoise : delim ∉ ws) (hidle : s.rxDone = false) (hs : s.rxState = .hunt) :
    (feed P ws s).rxDone = false ∧ (feed P ws s).rxState = .hunt := by
  induction ws generalizing s with
  | nil => exact ⟨hidle, hs⟩
  | cons w ws ih =>
    obtain ⟨hw, hws⟩ := not_or.1 (mt List.mem_cons.2 hnoise)
    have hstep : rxByte P w s = s.succeed := by
      rw [rxByte_of_idle w hidle]
      simp [rxConsume, hs, Ne.symm hw]
    rw [feed_cons, hstep]
    exact ih hws hidle hs

/-- All of a frame but its closing delimiter latches nothing. -/
theorem rxDone_feed_unclosed {c : List Byte} (hs : AwaitsFrame s) (hc : c.length + 2 ≤ P.rxMaxBody) :
    (feed P (delim :: escs (bodyOf P c)) s).rxDone = false := by
  rw [feed_cons, rxByte_delim_opens P hs.1 hs.2, feed_escs P _ _ (by exact hs.1) rfl (by simpa using hc) rfl]
  exact hs.1

/-! ### Decoding a buffer -/

/-- The outcome latched after all bytes is the first that was latched. -/
theorem decodeFrom_of_latchedOutcome_feed {ws : List Byte} {o : DecodeOutcome} (hidle : s.rxDone = false)
    (h : latchedOutcome (feed P ws s) = some o) : decodeFrom P ws s = o := by
  induction ws generalizing s with
  | nil => simp [latchedOutcome_of_idle hidle] at h
  | cons w ws ih =>
    rw [feed_cons] at h
    rw [decodeFrom]
    cases hd : (rxByte P w s).rxDone with
    | true =>
      rw [latchedOutcome_feed_of_done ws hd] at h
      rw [h]
    | false =>
      rw [latchedOutcome_of_idle hd]
      exact ih hd h

/-- Bytes that latch nothing add no outcome to the stream. -/
theorem decodeStreamFrom_append (ws vs : List Byte) (h : (feed P ws s).rxDone = false) :
    decodeStreamFrom P (ws ++ vs) s = decodeStreamFrom P vs (feed P ws s) := by
  induction ws generalizing s with
  | nil => rfl
  | cons w ws ih =>
    rw [feed_cons] at h
    rw [List.cons_append, decodeStreamFrom, latchedOutcome_of_idle (rxDone_of_feed ws h)]
    exact ih h

theorem decodeStreamFrom_cons_of_latchedOutcome {w : Byte} {o : DecodeOutcome} (vs : List Byte)
    (h : latchedOutcome (rxByte P w s) = some o) :
    decodeStreamFrom P (w :: vs) s = o :: decodeStreamFrom P vs (rxAck (rxByte P w s)) := by
  rw [decodeStreamFrom, h]

/-- A whole frame adds its content, and leaves the next frame awaited. -/
theorem decodeStreamFrom_encodeFrame {c : List Byte} (vs : List Byte) (hs : AwaitsFrame s)
    (hc : c.length + 2 ≤ P.rxMaxBody) : ∃ t, AwaitsFrame t ∧
      decodeStreamFrom P (encodeFrame P c ++ vs) s = .ok c :: decodeStreamFrom P vs t := by
  have hlatch := feed_encodeFrame P c s hs.1 hs.2 hc
  have hframe : encodeFrame P c = (delim :: escs (bodyOf P c)) ++ [delim] := encodeFrame_eq P c
  rw [hframe, feed_append, feed_cons, feed_nil] at hlatch
  rw [hframe, List.append_assoc, decodeStreamFrom_append _ _ (rxDone_feed_unclosed hs hc), List.singleton_append,
    decodeStreamFrom_cons_of_latchedOutcome vs (o := .ok c) (by rw [hlatch]; rfl), hlatch]
  exact ⟨_, ⟨rfl, .inr ⟨rfl, rfl⟩⟩, rfl⟩

theorem decodeStreamFrom_frames {cs : List (List Byte)} (hs : AwaitsFrame s)
    (hcs : ∀ c ∈ cs, c.length + 2 ≤ P.rxMaxBody) :
    decodeStreamFrom P (cs.flatMap (encodeFrame P)) s = cs.map .ok := by
  induction cs generalizing s with
  | nil => rfl
  | cons c cs ih =>
    obtain ⟨hc, hrest⟩ := List.forall_mem_cons.1 hcs
    obtain ⟨t, ht, hstream⟩ := decodeStreamFrom_encodeFrame (cs.flatMap (encodeFrame P)) hs hc
    rw [List.flatMap_cons, hstream, ih ht hrest, List.map_cons]

end Feeding

theorem awaitsFrame_resetWith (P : Params) : AwaitsFrame (State.resetWith P) := ⟨rfl, .inl rfl⟩

theorem decodeFrame_encodeFrame {P : Params} {c : List Byte} (hc : c.length + 2 ≤ P.rxMaxBody) :
    decodeFrame P (encodeFrame P c) = .ok c := by
  apply decodeFrom_of_latchedOutcome_feed rfl
  rw [feed_encodeFrame P c _ rfl (.inl rfl) hc]
  exact latchedOutcome_of_ok rfl rfl

/-- Settles O30: the closing delimiter latches the content, and nothing shorter latches, since all of the frame but that
delimiter does not. -/
theorem decodeFrameInvertsEncodeFrame : Obligations.DecodeFrameInvertsEncodeFrame := by
  intro P
  refine ⟨fun c hc => ⟨decodeFrame_encodeFrame hc, fun pre hpre => ?_⟩, ?_⟩
  · by_cases hwhole : pre = encodeFrame P c
    · rw [hwhole, feed_encodeFrame P c _ rfl (.inl rfl) hc]
      simp
    · have hframe : encodeFrame P c = (delim :: escs (bodyOf P c)) ++ [delim] := encodeFrame_eq P c
      rw [hframe, List.prefix_concat_iff, ← hframe] at hpre
      obtain ⟨post, hpost⟩ := hpre.resolve_left hwhole
      have hunclosed := rxDone_feed_unclosed (awaitsFrame_resetWith P) hc
      rw [← hpost, feed_append] at hunclosed
      rw [rxDone_of_feed post hunclosed, decide_eq_false hwhole]
  · rintro f ⟨c, hc, rfl⟩
    exact ⟨c, decodeFrame_encodeFrame hc, rfl⟩

/-- Settles O31: the noise is discarded in HUNT, and each frame leaves the next one awaited. -/
theorem decodeStreamOfFramesGivesEveryContent : Obligations.DecodeStreamOfFramesGivesEveryContent := by
  intro P noise cs hnoise hcs
  obtain ⟨hidle, hs⟩ := feed_hunt (P := P) (s := State.resetWith P) hnoise rfl rfl
  rw [decodeStream, decodeStreamFrom_append noise _ hidle]
  exact decodeStreamFrom_frames ⟨hidle, .inl hs⟩ hcs

/-- Settles O32: after RX_ACK the deframer is in OPEN with an empty body, or in HUNT if the outcome was OVERFLOW. -/
theorem deframerResynchronises : Obligations.DeframerResynchronises := by
  intro c s hinv hdone hc
  have hack : exec .rxAck s = .next s.unlatch.succeed := congrArg Host.Outcome.next (rxAck_of_done hdone)
  obtain ⟨hbody, -⟩ := hinv.doneLatched hdone
  have hstate := hinv.doneState hdone
  refine ⟨fun hcause => ?_, fun hcause junk hjunk => ?_⟩
  · rw [if_neg hcause] at hstate
    have hfeed := feed_body params c s.unlatch.succeed rfl hstate hbody rfl hc
    refine ⟨_, (runInstrs_cons _ hack).trans (runInstrs_rxFeed _ _), ?_⟩
    rw [encodeFrame_eq, List.drop_one, List.tail_cons, hfeed]
    exact ⟨rfl, rfl, rfl⟩
  · rw [if_pos hcause] at hstate
    obtain ⟨hidle, hhunt⟩ := feed_hunt (P := params) (s := s.unlatch.succeed) hjunk rfl hstate
    refine ⟨_, (runInstrs_cons _ hack).trans (runInstrs_rxFeed _ _), ?_⟩
    rw [feed_append, feed_encodeFrame params c _ hidle (.inl hhunt) hc]
    exact ⟨rfl, rfl, rfl⟩

/-! ### The bounded scan -/

/-- What a frame being received has collected: two for each body byte, and one for an escape byte that waits for its
second half. -/
def collected (s : State) : Nat := 2 * s.rxBody.length + if s.rxState = .esc then 1 else 0

/-- Inside a frame a byte that is no delimiter latches OVERFLOW or adds to what is collected (42_rx_deframer.md R141,
R143, R152). -/
theorem rxByte_collects {P : Params} {w : Byte} {s : State} (hw : w ≠ delim) (hidle : s.rxDone = false)
    (hs : s.rxState ≠ .hunt) (hfits : s.rxBody.length ≤ P.rxMaxBody) :
    ((rxByte P w s).rxDone = true ∧ (rxByte P w s).rxCause = .overflow ∧ (rxByte P w s).rxState = .hunt) ∨
    ((rxByte P w s).rxDone = false ∧ (rxByte P w s).rxState ≠ .hunt ∧ (rxByte P w s).rxBody.length ≤ P.rxMaxBody ∧
      collected s < collected (rxByte P w s)) := by
  rw [rxByte_of_idle w hidle]
  obtain ⟨h, -⟩ | ⟨h, -⟩ | ⟨-, h, -⟩ | ⟨hopen, -, h⟩ | ⟨-, h, -⟩ | ⟨-, -, hroom, v, h⟩ | ⟨-, -, -, h⟩ :=
    rxConsume_cases P w s
  · exact absurd h hs
  · exact absurd h hs
  · exact absurd h hw
  · rw [h]
    exact .inr ⟨hidle, nofun, hfits, by simp [collected, hopen]⟩
  · exact absurd h hw
  · rw [h]
    refine .inr ⟨hidle, nofun, ?_, ?_⟩
    · simp
      omega
    · simp [collected]
      split <;> omega
  · rw [h]
    exact .inl ⟨rfl, rfl, rfl⟩

theorem feed_overflows {P : Params} {ws : List Byte} {s : State} (hws : delim ∉ ws) (hidle : s.rxDone = false)
    (hs : s.rxState ≠ .hunt) (hfits : s.rxBody.length ≤ P.rxMaxBody)
    (hlong : 2 * P.rxMaxBody + 1 < ws.length + collected s) :
    (feed P ws s).rxDone = true ∧ (feed P ws s).rxCause = .overflow ∧ (feed P ws s).rxState = .hunt := by
  induction ws generalizing s with
  | nil =>
    simp [collected] at hlong
    split at hlong <;> omega
  | cons w ws ih =>
    obtain ⟨hw, hrest⟩ := not_or.1 (mt List.mem_cons.2 hws)
    rw [feed_cons]
    obtain ⟨hdone, hcause, hhunt⟩ | ⟨hidle', hs', hfits', hmore⟩ := rxByte_collects (Ne.symm hw) hidle hs hfits
    · obtain h | h := feed_of_done (P := P) ws hdone <;> rw [h] <;> exact ⟨hdone, hcause, hhunt⟩
    · exact ih hrest hidle' hs' hfits' (by simp at hlong; omega)

/-- Settles O33: each byte that does not overflow adds to what is collected, of which `2 x RX_MAX_BODY + 1` is the most. -/
theorem scanIsBounded : Obligations.ScanIsBounded := by
  intro ws s hs hbody hidle hws hlength
  exact ⟨_, runInstrs_rxFeed ws s, feed_overflows hws hidle (by simp [hs]) (by simp [hbody]) (by omega)⟩

/-! ### The host's reads -/

/-- The read loop from inside the content, `n` bytes before its end. -/
theorem readLoop_rdRxData {n : Nat} {s : State} (hdone : s.rxDone = true) (hok : s.rxResult = .ok)
    (hn : s.rxContent.length = s.rxRd + n) :
    readLoop .rdRxData (n + 1) s = .next { s with
      rxRd := s.rxContent.length,
      hostReads := s.hostReads ++ (s.rxContent.drop s.rxRd).map validByte ++ [noByte] } := by
  induction n generalizing s with
  | zero =>
    have hread : exec .rdRxData s = .next (readRxData s) := rfl
    rw [readRxData_of_none (nextContent_eq_none.2 (.inr (.inr (by omega))))] at hread
    rw [readLoop_succ hread, lastReadValid_noByte]
    simp [State.returnRead, hn]
  | succ n ih =>
    have hlt : s.rxRd < s.rxContent.length := by omega
    have hnext : s.nextContent = some s.rxContent[s.rxRd] :=
      nextContent_eq_some.2 ⟨hdone, hok, List.getElem?_eq_getElem hlt⟩
    have hread : exec .rdRxData s =
        .next (State.returnRead { s with rxRd := s.rxRd + 1 } (validByte s.rxContent[s.rxRd])) :=
      congrArg Host.Outcome.next (readRxData_of_some hnext)
    rw [readLoop_succ hread, lastReadValid_validByte, if_pos rfl,
      ih (by exact hdone) (by exact hok) (by simp; omega)]
    simp only [State.returnRead, List.drop_eq_getElem_cons hlt, List.map_cons, List.append_assoc, List.cons_append,
      List.nil_append]

/-- Settles O29: from the start of the content the loop reads all of it. -/
theorem rxReadReturnsTheContentInOrder : Obligations.RxReadReturnsTheContentInOrder := by
  intro s hdone hok hrd
  simp only [← validByte_eq]
  rw [rxRead, readLoop_rdRxData hdone hok (by omega), hrd, List.drop_zero]
  rfl

/-! ### Loopback -/

/-- Settles O34: the FIFO holds the encoded frame, which the deframer receives from HUNT. -/
theorem loopbackDeliversTheContent : Obligations.LoopbackDeliversTheContent := by
  intro c s hactive hq hhunt hidle hroom hc
  have hlength := (encodedFrameDelimitersAndLength params c).2.2
  refine ⟨_, _, runInstrs_txFrame c hactive (by rw [hq, List.length_nil]; omega), runInstrs_rxFeed _ _, ?_⟩
  have hwire : (s.sentFrame c).txq = encodeFrame params c := by simp [State.sentFrame, hq]
  rw [hwire, feed_encodeFrame params c (s.sentFrame c) hidle (.inl hhunt) hc]
  exact ⟨rfl, rfl, rfl, rfl, rfl⟩

end Sys2Proof.Machine
end

section
/-! The exact value of a recognised record (43_scalar_decoder.md R164). -/

namespace Sys2Proof.Machine

open Sys2Proof.Config (params)

/-- The byte that holds exp reads back as exp, for every row of R161. -/
theorem Quantity.toInt_ofInt_exp (q : Quantity) : (BitVec.ofInt 8 q.exp).toInt = q.exp := by cases q <;> rfl

/-- The 64-bit raw value, read as RAW_SIGNED says, is the integer in the value registers: the extension of a 4-byte value
keeps it. -/
theorem mantissa_of_rawValue {q : Quantity} {s t : State} (ht : t.sdMant = rawValue params q s) :
    mantissa params t = if q.width = 8 then
        (if params.rawSigned = true then (s.sdValHi ++ s.sdValLo).toInt else ((s.sdValHi ++ s.sdValLo).toNat : Int))
      else (if params.rawSigned = true then s.sdValLo.toInt else (s.sdValLo.toNat : Int)) := by
  rw [mantissa, ht, rawValue]
  by_cases hwidth : q.width = 8
  · simp only [if_pos hwidth, rawLong]
  · simp only [if_neg hwidth, rawInt]
    by_cases hsigned : params.rawSigned = true
    · simp only [if_pos hsigned]
      exact BitVec.toInt_signExtend_of_le (by decide)
    · simp only [if_neg hsigned]
      rw [BitVec.toNat_setWidth_of_le (by decide)]

/-- Settles O36: the outputs hold the raw value and the row's exp. -/
theorem recognisedRecordHasTheExactValue : Obligations.RecognisedRecordHasTheExactValue := by
  intro s t q hq h
  cases h
  have hs := sdDecode_of_recognise hq
  have hstatus : (sdDecode params s).sdStatus = .recognized := by rw [hs]
  have hexp : (sdDecode params s).sdExp = BitVec.ofInt 8 q.exp := by rw [hs]
  have hmant : (sdDecode params s).sdMant = rawValue params q s := by rw [hs]
  rw [fixedPoint, if_pos hstatus, mantissa_of_rawValue hmant, hexp, q.toInt_ofInt_exp]

end Sys2Proof.Machine
end
